-- ==== Sys2Proof/Word.lean ====
section
/-! DEFINITION. The bit-vector types of the SFSR (00_scope.md R12: a byte is 8 bits, a CSR or a command word 32). -/

namespace Sys2Proof

/-- A byte of a buffer, a type code, a sentinel, or the B field of a command word. -/
abbrev Byte := BitVec 8

/-- The value of a 16-bit bus write (which no address of the block admits). -/
abbrev Half := BitVec 16

/-- A CSR, a command word, or the data of a 32-bit bus access. -/
abbrev Word := BitVec 32

end Sys2Proof
end

