-- ==== Sys2Proof/Config.lean ====
section
/-! DEFINITION. The build-time parameters of the SFSR (00_scope.md R9, R41): the model's argument. -/

namespace Sys2Proof

/-- The router's synchronisation policy (41_router.md R160; CFG1[16], 30_encoding.md R110). -/
inductive Policy where
  /-- DOC's "Accumulate-until-tail". -/
  | accumulate
  /-- DOC's "Whole-frame delivery". -/
  | wholeFrame
deriving DecidableEq, Repr

/-- The parameters of 00_scope.md R9, one field each. Their constraints are in Sys2Proof/WellFormed.lean. -/
structure Config where
  /-- POLICY. -/
  policy : Policy
  /-- ACC_CAP: accumulator capacity in bytes. -/
  accCap : Nat
  /-- Q_DEPTH: response-queue slots. -/
  qDepth : Nat
  /-- Q_FRAME_MAX: the largest frame a slot holds, in bytes. -/
  qFrameMax : Nat
  /-- PBUF_SIZE: producer buffer bytes. -/
  pbufSize : Nat
  /-- RBUF_SIZE: response buffer bytes. -/
  rbufSize : Nat
  /-- TX_SIZE: transmit buffer bytes. -/
  txSize : Nat
  /-- RX_SIZE: receive buffer bytes. -/
  rxSize : Nat
  /-- READY_BYTE. -/
  readyByte : Byte
  /-- BUSY_BYTE. -/
  busyByte : Byte
  /-- POLL_BYTE. -/
  pollByte : Byte
  /-- KNOWN_TYPES, as the mask over type codes in which R33 shows it: bit t is 1 when t is in the set (DEDUCED, safe,
  log 10). -/
  knownTypes : BitVec 256
  /-- BASE: the bus address of offset 0x0000. -/
  base : Nat
deriving DecidableEq, Repr

/-- The reference configuration (00_scope.md R9, D42). DESIGN CHOICE that State.reset uses it (log 1, unsafe for a claim
about State.reset alone; the statements hold for every configuration). -/
def Config.reference : Config where
  policy := .accumulate
  accCap := 32
  qDepth := 4
  qFrameMax := 32
  pbufSize := 64
  rbufSize := 64
  txSize := 64
  rxSize := 64
  readyByte := 0xA5#8
  busyByte := 0x5A#8
  pollByte := 0xC3#8
  knownTypes := 0xFFFE#256
  base := 0x40010000

/-- The reference configuration with the other policy: the "WF" configuration of 95_test_vectors.md. -/
def Config.referenceWholeFrame : Config := { Config.reference with policy := .wholeFrame }

/-- Is the type code t in KNOWN_TYPES (00_scope.md R9)? -/
def Config.knows (c : Config) (t : Byte) : Bool := c.knownTypes.getLsbD t.toNat

end Sys2Proof
end

