-- ==== Sys2Proof/Machine/Constants.lean ====
section
/-! DEFINITION. The fixed literals of the wire format and of the router (00_scope.md R11, R17; 30_encoding.md R90).
R17 and 93_implementation_defined.md I1 ask for them as named constants, since the source's literals are unaudited
(UNVERIFIED by the source; the spec takes them as normative, log 16, unsafe). -/

namespace Sys2Proof

/-- REQ_HDR: the first byte of a request frame (R90). -/
def reqHdr : Byte := 0xAA#8

/-- REQ_TAIL: the last byte of a request frame (R90). -/
def reqTail : Byte := 0x55#8

/-- RSP_HDR: the first byte of a response frame (R90). -/
def rspHdr : Byte := 0xAB#8

/-- RSP_TAIL: the last byte of a response frame (R90). -/
def rspTail : Byte := 0x54#8

/-- MIN_FRAME: header, type, frameId and tail (30_encoding.md R93). -/
def minFrame : Nat := 4

/-- TAIL_SCAN_START: the accumulate policy looks for the tail from index 3 on (41_router.md R162). -/
def tailScanStart : Nat := 3

/-- The index of the header byte of a frame (R91). -/
def hdrIndex : Nat := 0

/-- The index of the type byte of a frame (R91). -/
def typeIndex : Nat := 1

/-- The index where every parity range starts: the type byte (R94; 40_codec_toolkit.md R121). -/
def parityStart : Nat := typeIndex

/-- The index of the frameId, the first payload byte (R91, R92). No command reads or checks it (R92), so no meaning uses this
name. -/
def frameIdIndex : Nat := 2

/-- The source's example response, for a parity byte it does not give (95_test_vectors.md W1). Only tests use it. -/
def exampleFrame (parity : Byte) : List Byte := [rspHdr, 0x04#8, 0xAA#8, 0x00#8, 0x03#8, 0x00#8, parity, rspTail]

end Sys2Proof
end

