-- ==== Sys2Proof/Syntax.lean ====
section
/-! DEFINITION. The 23 commands of the SFSR (30_encoding.md R104), one constructor per row of spec/opcode_table.json.
A constructor carries exactly the operands its command uses: bytes as bytes, and lengths, capacities, offsets and indices
as the natural numbers R18 computes with (WellFormed.lean says that they fit their fields). -/

namespace Sys2Proof

/-- A command. `s` is a status byte, `t` a type code, `n` and `l` lengths, `last` and `pidx` the last covered index and the
parity index, `off` a byte offset into PBUF. -/
inductive Instr where
  /-- FEED N: present RXBUF[RX_OFF..RX_OFF+N-1] to the router (R164). -/
  | feed (n : Nat)
  /-- ACK: the handler has returned (R166). -/
  | ack
  /-- PUSH: append the frame in PBUF to the response queue (R201). -/
  | push
  /-- POP N: remove the oldest frame into RBUF, a destination of capacity N (R203). -/
  | pop (n : Nat)
  /-- COUNT: read the occupancy (R204). -/
  | count
  /-- CSTATUS N: the status byte for capacity N (R232). -/
  | cstatus (n : Nat)
  /-- PREPARE B, N: a transaction of N bytes with no response (R234). -/
  | prepare (s : Byte) (n : Nat)
  /-- PREPARE_RSP B, N: a transaction of N bytes with the response in RBUF (R235). -/
  | prepareRsp (s : Byte) (n : Nat)
  /-- VALREQ B, N: validate a request frame of type B and wire length N (R124). -/
  | valreq (t : Byte) (l : Nat)
  /-- VALRSP B, N: validate a response frame (R125). -/
  | valrsp (t : Byte) (l : Nat)
  /-- PCALC_BYTE B, N (R126). -/
  | pcalcByte (last pidx : Nat)
  /-- PCHK_BYTE B, N (R127). -/
  | pchkByte (last pidx : Nat)
  /-- PSET_BYTE B, N (R128). -/
  | psetByte (last pidx : Nat)
  /-- PCALC_BIT B, N (R129). -/
  | pcalcBit (last pidx : Nat)
  /-- PCHK_BIT B, N (R130). -/
  | pchkBit (last pidx : Nat)
  /-- PSET_BIT B, N (R131). -/
  | psetBit (last pidx : Nat)
  /-- PCALC_NONE (R132). -/
  | pcalcNone
  /-- PCHK_NONE (R133). -/
  | pchkNone
  /-- PSET_NONE (R134). -/
  | psetNone
  /-- GET16 N (R138). -/
  | get16 (off : Nat)
  /-- GET32 N (R139). -/
  | get32 (off : Nat)
  /-- PUT16 N: the value is DATA[15:0] (R140). -/
  | put16 (off : Nat)
  /-- PUT32 N: the value is DATA (R141). -/
  | put32 (off : Nat)
deriving DecidableEq, Repr

end Sys2Proof
end

