-- ==== Sys2Proof/WellFormed.lean ====
section
/-! DEFINITION. What a command's operands and a configuration must satisfy. -/

namespace Sys2Proof

/-- An operand that the B field can hold: an unsigned 8-bit value (30_encoding.md R101). -/
def fitsB (v : Nat) : Bool := decide (v < 256)

/-- An operand that the N field can hold: an unsigned 16-bit value (30_encoding.md R101). -/
def fitsN (v : Nat) : Bool := decide (v < 65536)

/-- A command whose operands fit their fields. There is no other condition: every value of B and N is legal under a legal
OP (30_encoding.md R101, R107). -/
def Instr.wellFormed : Instr → Bool
  | .feed n => fitsN n
  | .ack => true
  | .push => true
  | .pop n => fitsN n
  | .count => true
  | .cstatus n => fitsN n
  | .prepare _ n => fitsN n
  | .prepareRsp _ n => fitsN n
  | .valreq _ l => fitsN l
  | .valrsp _ l => fitsN l
  | .pcalcByte last pidx => fitsB last && fitsN pidx
  | .pchkByte last pidx => fitsB last && fitsN pidx
  | .psetByte last pidx => fitsB last && fitsN pidx
  | .pcalcBit last pidx => fitsB last && fitsN pidx
  | .pchkBit last pidx => fitsB last && fitsN pidx
  | .psetBit last pidx => fitsB last && fitsN pidx
  | .pcalcNone => true
  | .pchkNone => true
  | .psetNone => true
  | .get16 off => fitsN off
  | .get32 off => fitsN off
  | .put16 off => fitsN off
  | .put32 off => fitsN off

/-- The size constraints of 00_scope.md R9, row by row. -/
def Config.sizesOk (c : Config) : Bool :=
  decide (4 ≤ c.accCap ∧ c.accCap ≤ 4096) &&
  decide (1 ≤ c.qDepth ∧ c.qDepth ≤ 65535) &&
  decide (1 ≤ c.qFrameMax ∧ c.qFrameMax ≤ 4096) &&
  decide (4 ≤ c.pbufSize ∧ c.pbufSize ≤ 4096) &&
  decide (1 ≤ c.rbufSize ∧ c.rbufSize ≤ 4096) &&
  decide (1 ≤ c.txSize ∧ c.txSize ≤ 4096) &&
  decide (1 ≤ c.rxSize ∧ c.rxSize ≤ 4096)

/-- READY_BYTE, BUSY_BYTE and POLL_BYTE are pairwise distinct (00_scope.md R10). -/
def Config.sentinelsDistinct (c : Config) : Bool :=
  c.readyByte != c.busyByte && c.readyByte != c.pollByte && c.busyByte != c.pollByte

/-- The byte is one of the four frame sentinels (00_scope.md R10, R11). -/
def isFrameSentinel (b : Byte) : Bool := b == reqHdr || b == rspHdr || b == reqTail || b == rspTail

/-- None of the handshake bytes is a frame sentinel (00_scope.md R10). -/
def Config.sentinelsNotFrame (c : Config) : Bool :=
  !isFrameSentinel c.readyByte && !isFrameSentinel c.busyByte && !isFrameSentinel c.pollByte

/-- None of the handshake bytes is in KNOWN_TYPES (00_scope.md R10). -/
def Config.sentinelsNotTypes (c : Config) : Bool :=
  !c.knows c.readyByte && !c.knows c.busyByte && !c.knows c.pollByte

/-- BASE is aligned to 32 KiB (00_scope.md R9). -/
def Config.baseAligned (c : Config) : Bool := c.base % 0x8000 == 0

/-- A configuration that is an SFSR: it breaks no constraint of 00_scope.md R9 and R10. -/
def Config.wellFormed (c : Config) : Bool :=
  c.sizesOk && c.sentinelsDistinct && c.sentinelsNotFrame && c.sentinelsNotTypes && c.baseAligned

end Sys2Proof
end

