-- ==== Sys2Proof/Decode.lean ====
section
/-! DEFINITION. The command word: OP in 31:24, B in 23:16, N in 15:0 (30_encoding.md R100), its decoder (R104, R106) and its
encoder (R103). A command is selected by OP alone; a field it does not use is ignored (R101, R107). -/

namespace Sys2Proof

/-- Why a word is no command. Safe: the machine sets STATUS.ILLCMD for it, as 60_exceptions.md R264 says. -/
inductive DecodeError where
  /-- The OP byte is one of the 233 illegal values (30_encoding.md R106). -/
  | illegalOp (op : Byte)
deriving DecidableEq, Repr

/-- OP, bits 31:24 (R100). -/
def opField (w : Word) : Byte := w.extractLsb' 24 8

/-- B, bits 23:16, as a byte (R100). -/
def bField (w : Word) : Byte := w.extractLsb' 16 8

/-- B as an unsigned number (R101). -/
def bNumber (w : Word) : Nat := (bField w).toNat

/-- N, bits 15:0, as an unsigned number (R100, R101). -/
def nField (w : Word) : Nat := (w.extractLsb' 0 16).toNat

/-- The command a word stands for (R104), or the illegal OP it holds (R106). -/
def decode (w : Word) : Except DecodeError Instr :=
  match opField w with
  | 0x10#8 => .ok (.feed (nField w))
  | 0x11#8 => .ok .ack
  | 0x20#8 => .ok .push
  | 0x21#8 => .ok (.pop (nField w))
  | 0x22#8 => .ok .count
  | 0x30#8 => .ok (.cstatus (nField w))
  | 0x31#8 => .ok (.prepare (bField w) (nField w))
  | 0x32#8 => .ok (.prepareRsp (bField w) (nField w))
  | 0x40#8 => .ok (.valreq (bField w) (nField w))
  | 0x41#8 => .ok (.valrsp (bField w) (nField w))
  | 0x50#8 => .ok (.pcalcByte (bNumber w) (nField w))
  | 0x51#8 => .ok (.pchkByte (bNumber w) (nField w))
  | 0x52#8 => .ok (.psetByte (bNumber w) (nField w))
  | 0x54#8 => .ok (.pcalcBit (bNumber w) (nField w))
  | 0x55#8 => .ok (.pchkBit (bNumber w) (nField w))
  | 0x56#8 => .ok (.psetBit (bNumber w) (nField w))
  | 0x58#8 => .ok .pcalcNone
  | 0x59#8 => .ok .pchkNone
  | 0x5A#8 => .ok .psetNone
  | 0x60#8 => .ok (.get16 (nField w))
  | 0x61#8 => .ok (.get32 (nField w))
  | 0x62#8 => .ok (.put16 (nField w))
  | 0x63#8 => .ok (.put32 (nField w))
  | op => .error (.illegalOp op)

/-- The word (OP << 24) | (B << 16) | N (R103). -/
def cmdWord (op : Byte) (b : Byte) (n : Nat) : Word := op ++ b ++ BitVec.ofNat 16 n

/-- The OP byte of a command (R104). -/
def Instr.opcode : Instr → Byte
  | .feed _ => 0x10#8
  | .ack => 0x11#8
  | .push => 0x20#8
  | .pop _ => 0x21#8
  | .count => 0x22#8
  | .cstatus _ => 0x30#8
  | .prepare _ _ => 0x31#8
  | .prepareRsp _ _ => 0x32#8
  | .valreq _ _ => 0x40#8
  | .valrsp _ _ => 0x41#8
  | .pcalcByte _ _ => 0x50#8
  | .pchkByte _ _ => 0x51#8
  | .psetByte _ _ => 0x52#8
  | .pcalcBit _ _ => 0x54#8
  | .pchkBit _ _ => 0x55#8
  | .psetBit _ _ => 0x56#8
  | .pcalcNone => 0x58#8
  | .pchkNone => 0x59#8
  | .psetNone => 0x5A#8
  | .get16 _ => 0x60#8
  | .get32 _ => 0x61#8
  | .put16 _ => 0x62#8
  | .put32 _ => 0x63#8

/-- The B field of a command's encoding: its byte operand, and 0 where it uses none (R103). -/
def Instr.bOperand : Instr → Byte
  | .prepare s _ => s
  | .prepareRsp s _ => s
  | .valreq t _ => t
  | .valrsp t _ => t
  | .pcalcByte last _ => BitVec.ofNat 8 last
  | .pchkByte last _ => BitVec.ofNat 8 last
  | .psetByte last _ => BitVec.ofNat 8 last
  | .pcalcBit last _ => BitVec.ofNat 8 last
  | .pchkBit last _ => BitVec.ofNat 8 last
  | .psetBit last _ => BitVec.ofNat 8 last
  | .feed _ | .ack | .push | .pop _ | .count | .cstatus _ | .pcalcNone | .pchkNone | .psetNone
  | .get16 _ | .get32 _ | .put16 _ | .put32 _ => 0x00#8

/-- The N field of a command's encoding: its 16-bit operand, and 0 where it uses none (R103). -/
def Instr.nOperand : Instr → Nat
  | .feed n => n
  | .pop n => n
  | .cstatus n => n
  | .prepare _ n => n
  | .prepareRsp _ n => n
  | .valreq _ l => l
  | .valrsp _ l => l
  | .pcalcByte _ pidx => pidx
  | .pchkByte _ pidx => pidx
  | .psetByte _ pidx => pidx
  | .pcalcBit _ pidx => pidx
  | .pchkBit _ pidx => pidx
  | .psetBit _ pidx => pidx
  | .get16 off => off
  | .get32 off => off
  | .put16 off => off
  | .put32 off => off
  | .ack | .push | .count | .pcalcNone | .pchkNone | .psetNone => 0

/-- The encoding of an assembler line: (OP << 24) | (B << 16) | N with unused fields 0 (R103). -/
def encode (i : Instr) : Word := cmdWord i.opcode i.bOperand i.nOperand

/-- The instruction the decoder reads from an opcode-table word of `nbits` bits: a command is one 32-bit bus word (R100), so
the bits above `nbits` are 0 and no byte order enters (20_memory.md R68). -/
def decodeTableWord (nbits w : Nat) : Option Instr := (decode (BitVec.ofNat 32 (w % 2 ^ nbits))).toOption

end Sys2Proof
end

