-- ==== Sys2Proof/Machine/Memory.lean ====
section
/-! DEFINITION. The byte buffers of the block as one list of cells in canonical form, keyed by window offset (20_memory.md
R61). The whole address space of the block is the 32 KiB window; its CSR region is not memory but registers. -/

namespace Sys2Proof.Machine

/-- The buffers PBUF, RBUF, TXBUF, RXBUF and ACC: cells (window offset, byte). -/
abbrev Memory := List Host.Cell

/-- What an unlisted offset reads as: 0x00, the content reset gives every buffer byte (70_reset_and_hazards.md R291). -/
def Memory.fill : Byte := 0x00#8

/-- The byte at a window offset. -/
def Memory.get : Memory → Nat → Byte
  | [], _ => Memory.fill
  | (a, b) :: rest, x => if a = x then b else Memory.get rest x

/-- Place a byte in address order, replacing an entry of the same address. -/
def Memory.insert : Memory → Nat → Byte → Memory
  | [], x, v => [(x, v)]
  | (a, b) :: rest, x, v =>
    if x < a then (x, v) :: (a, b) :: rest
    else if x = a then (x, v) :: rest
    else (a, b) :: Memory.insert rest x v

/-- Drop every entry of an address. -/
def Memory.erase : Memory → Nat → Memory
  | [], _ => []
  | (a, b) :: rest, x => if a = x then Memory.erase rest x else (a, b) :: Memory.erase rest x

/-- Store a byte and keep the canonical form: a byte equal to the fill byte is not listed. -/
def Memory.put (m : Memory) (x : Nat) (v : Byte) : Memory :=
  if v = Memory.fill then m.erase x else m.insert x v

/-- Store a byte sequence at rising offsets (00_scope.md R13: byte by byte from index a). -/
def Memory.putBytes : Memory → Nat → List Byte → Memory
  | m, _, [] => m
  | m, x, v :: vs => Memory.putBytes (m.put x v) (x + 1) vs

/-- The n bytes from an offset on. -/
def Memory.bytes (m : Memory) (x n : Nat) : List Byte := (List.range n).map (fun i => m.get (x + i))

/-- The canonical form of a memory: addresses strictly rising, and no entry that reads as an unlisted address does. -/
def Memory.wf : Memory → Bool
  | [] => true
  | [(_, b)] => b != Memory.fill
  | (a, b) :: (a', b') :: rest => b != Memory.fill && decide (a < a') && Memory.wf ((a', b') :: rest)

end Sys2Proof.Machine
end

