-- ==== Sys2Proof/Machine/State.lean ====
section
/-! DEFINITION. The state of the SFSR (10_state.md R20), the accesses its port serves (20_memory.md R60 to R66), the
answers it gives, and the reset state (70_reset_and_hazards.md R291). -/

namespace Sys2Proof.Machine

/-- The router's phase (10_state.md R30). -/
inductive Phase where
  /-- No dispatch is pending. -/
  | idle
  /-- A validated request frame has been handed to its handler, which has not yet issued ACK. -/
  | dispatch
deriving DecidableEq, Repr

/-- The result codes (30_encoding.md R108). -/
inductive ResultCode where
  /-- Success. -/
  | ok
  /-- Absent pointer, or zero or insufficient length. -/
  | arg
  /-- Header, tail or type mismatch. -/
  | frame
  /-- Storage exhaustion. -/
  | alloc
  /-- Destination too small. -/
  | range
  /-- Checksum mismatch. -/
  | parity
deriving DecidableEq, Repr

/-- A slot of the response queue: Q_LEN[s] and Q_DATA[s] (10_state.md R35). -/
structure Slot where
  /-- Q_LEN[s], a 16-bit length. -/
  len : Nat
  /-- Q_DATA[s], Q_FRAME_MAX bytes. -/
  data : List Byte
deriving DecidableEq, Repr

/-- The width of a bus access: n in 1, 2, 4 bytes (20_memory.md R66). -/
inductive Width where
  | w8
  | w16
  | w32
deriving DecidableEq, Repr

/-- What arrives at the block: a bus access at a bus address, or the reset event, which falls between accesses
(20_memory.md R60 to R66; 70_reset_and_hazards.md R290). An access does not name its master, since every admitted access has
the same effect whoever makes it (60_exceptions.md R270; DEDUCED, safe, log 12). -/
inductive Access where
  /-- MemRead(addr, n). -/
  | read (w : Width) (addr : Nat)
  /-- MemWrite(addr, 1, v). -/
  | write8 (addr : Nat) (v : Byte)
  /-- MemWrite(addr, 2, v). -/
  | write16 (addr : Nat) (v : Half)
  /-- MemWrite(addr, 4, v). -/
  | write32 (addr : Nat) (v : Word)
  /-- The reset input. -/
  | reset
deriving DecidableEq, Repr

/-- The port's answer to the last access it served (00_scope.md R7; 60_exceptions.md R265). -/
inductive Response where
  /-- No access has been answered since reset. -/
  | none
  /-- The byte an 8-bit read returns. -/
  | byte (v : Byte)
  /-- The value a 32-bit read returns. -/
  | word (v : Word)
  /-- An admitted write has completed (20_memory.md R71). -/
  | done
  /-- The bus error response (60_exceptions.md R265). -/
  | busError
deriving DecidableEq, Repr

/-- Why the model stops with a fault. No command ends in one. -/
inductive Fault where
  /-- Raised by a read or write whose bus address is not in the 32 KiB window at BASE: it is no access of this block
  (20_memory.md R60). Safe: the model stops where the hardware is not addressed. DESIGN CHOICE, log 6. -/
  | outsideWindow
deriving DecidableEq, Repr

/-- Why the model refuses to go on. No command ends in one. -/
inductive Refusal where
  /-- Raised by an arm of exec whose instruction has no meaning yet. Safe. No arm of this model does. -/
  | notModelled (mnemonic : String)
  /-- Raised by the step when the configuration breaks a constraint of 00_scope.md R9 or R10, which says that such a
  configuration is not an SFSR and that a model refuses it. Safe. Log 7. -/
  | invalidConfiguration
deriving DecidableEq, Repr

/-- The state. All but the last two fields and `cfg` is the table of 10_state.md R20. Lengths, cursors and counts are
naturals, since every rule computes with them exactly and R45 bounds them (00_scope.md R18; DEDUCED, safe, log 8). -/
structure State where
  /-- The parameters, the model's argument: no step changes them (10_state.md R41; DESIGN CHOICE, log 1). -/
  cfg : Config
  /-- PHASE. -/
  phase : Phase
  /-- PBUF, RBUF, TXBUF, RXBUF and ACC, by window offset (DESIGN CHOICE, safe, log 11). -/
  mem : Memory
  /-- ACC_LEN. -/
  accLen : Nat
  /-- FEED_POS. -/
  feedPos : Nat
  /-- FEED_END. -/
  feedEnd : Nat
  /-- DSP_TYPE. -/
  dspType : Byte
  /-- DSP_LEN. -/
  dspLen : Nat
  /-- DSP_OFF. -/
  dspOff : Nat
  /-- HEN0..HEN7, HENk in bits 32k+31..32k, so that bit t is the handler bit of type t (10_state.md R33). -/
  hen : BitVec 256
  /-- RX_OFF. -/
  rxOff : Nat
  /-- Q_LEN and Q_DATA, slot by slot. -/
  slots : List Slot
  /-- Q_HEAD. -/
  qHead : Nat
  /-- Q_COUNT. -/
  qCount : Nat
  /-- PBUF_LEN. -/
  pbufLen : Nat
  /-- RSP_LEN. -/
  rspLen : Nat
  /-- TX_LEN. -/
  txLen : Nat
  /-- RESULT. -/
  result : Word
  /-- STATUS.RC. -/
  rc : ResultCode
  /-- STATUS.SEQERR. -/
  seqErr : Bool
  /-- STATUS.ILLCMD. -/
  illCmd : Bool
  /-- DATA. -/
  data : Word
  /-- The model's own: what has arrived at the port and is not yet served, oldest first (20_memory.md R70; DESIGN CHOICE,
  log 2). -/
  pending : List Access
  /-- The model's own: the port's last answer (DESIGN CHOICE, log 3). -/
  response : Response
deriving DecidableEq, Repr

/-- A queue slot after reset (R291). -/
def Slot.cleared (size : Nat) : Slot := { len := 0, data := List.replicate size 0x00#8 }

/-- The state a block of configuration c is in after reset, with nothing on its port (70_reset_and_hazards.md R291). -/
def State.resetOf (c : Config) : State where
  cfg := c
  phase := .idle
  mem := []
  accLen := 0
  feedPos := 0
  feedEnd := 0
  dspType := 0
  dspLen := 0
  dspOff := 0
  hen := 0
  rxOff := 0
  slots := List.replicate c.qDepth (Slot.cleared c.qFrameMax)
  qHead := 0
  qCount := 0
  pbufLen := 0
  rspLen := 0
  txLen := 0
  result := 0
  rc := .ok
  seqErr := false
  illCmd := false
  data := 0
  pending := []
  response := .none

/-- The machine right after reset, in the reference configuration (R291, R9; DESIGN CHOICE of the configuration, log 1). -/
def State.reset : State := State.resetOf Config.reference

end Sys2Proof.Machine
end

