-- ==== Sys2Proof/Machine/Flags.lean ====
section
/-! DEFINITION. The flags of the block and their writers (10_state.md R24 to R26, R44): the result code and RESULT, the two
sticky refusal flags, the phase bit, and the STATUS word that shows them. The SFSR has no condition codes (R44). -/

namespace Sys2Proof.Machine

/-- The number of a result code (30_encoding.md R108). -/
def ResultCode.code : ResultCode → BitVec 3
  | .ok => 0#3
  | .arg => 1#3
  | .frame => 2#3
  | .alloc => 3#3
  | .range => 4#3
  | .parity => 5#3

/-- STATUS.DSP_PEND: 1 when PHASE = DISPATCH (R25). -/
def Phase.pendBit : Phase → Bool
  | .idle => false
  | .dispatch => true

/-- The STATUS word: RC in 2:0, DSP_PEND in 4, SEQERR in 8, ILLCMD in 9, every other bit 0 (R25). -/
def State.statusWord (s : State) : Word :=
  0#22 ++ BitVec.ofBool s.illCmd ++ BitVec.ofBool s.seqErr ++ 0#3 ++ BitVec.ofBool s.phase.pendBit ++ 0#1 ++ s.rc.code

/-- `RC <- rc; RESULT <- v` (00_scope.md R13). -/
def State.finish (s : State) (rc : ResultCode) (v : Word) : State := { s with rc := rc, result := v }

/-- A command that ends with RC = OK writes its value to RESULT (R24). -/
def State.finishOk (s : State) (v : Word) : State := s.finish .ok v

/-- A command that ends with another code writes 0 to RESULT (R24). -/
def State.fail (s : State) (rc : ResultCode) : State := s.finish rc 0#32

/-- `zext_32` of a number that fits its register (R12): the value a RESULT or a CSR shows for a length or a count. -/
def zext (v : Nat) : Word := BitVec.ofNat 32 v

/-- A 16-bit field of a CSR, read in bits 15:0 with bits 31:16 zero (R29, R31, R32, R34, R37 to R39). -/
def zext16 (v : Nat) : Word := (BitVec.ofNat 16 v).setWidth 32

/-- `zext_32` of a byte. -/
def zextByte (b : Byte) : Word := b.setWidth 32

/-- RESULT of FEED and ACK: 1 when the command stopped at a dispatch, else 0 (41_router.md R164, R166). -/
def dispatchResult (p : Phase) : Word :=
  match p with
  | .idle => 0#32
  | .dispatch => 1#32

/-- `reject SEQERR`: the command is refused for its phase, the sticky flag is set, nothing else changes
(60_exceptions.md R263). -/
def State.rejectSeq (s : State) : State := { s with seqErr := true }

/-- `reject ILLCMD`: the word is no command, the sticky flag is set, nothing else changes (60_exceptions.md R264). -/
def State.rejectIll (s : State) : State := { s with illCmd := true }

/-- A host write of w to STATUS: bit 8 clears SEQERR, bit 9 clears ILLCMD, nothing else changes (R26). -/
def State.writeStatus (s : State) (w : Word) : State :=
  { s with seqErr := s.seqErr && !w.getLsbD 8, illCmd := s.illCmd && !w.getLsbD 9 }

/-- A command that executes only in phase p, and is refused with SEQERR in the other (60_exceptions.md R260, R263). -/
def onlyIn (p : Phase) (s : State) (run : State → State) : Host.Outcome State Fault Refusal :=
  if s.phase = p then .next (run s) else .next s.rejectSeq

/-- A command that executes in both phases (30_encoding.md R104). -/
def inBoth (s : State) (run : State → State) : Host.Outcome State Fault Refusal := .next (run s)

end Sys2Proof.Machine
end

