-- ==== Sys2Proof/Machine/Ops.lean ====
section
/-! DEFINITION. The named operations over buffers and queue slots that the commands share. -/

namespace Sys2Proof.Machine

/-- The five buffers of the address map (20_memory.md R61). -/
inductive Buffer where
  | pbuf
  | rbuf
  | txbuf
  | rxbuf
  | acc
deriving DecidableEq, Repr

/-- Where a buffer's window begins (20_memory.md R61). -/
def Buffer.start : Buffer → Nat
  | .pbuf => 0x1000
  | .rbuf => 0x2000
  | .txbuf => 0x3000
  | .rxbuf => 0x4000
  | .acc => 0x5000

/-- How many bytes of its window a buffer uses (20_memory.md R61). -/
def Buffer.size (c : Config) : Buffer → Nat
  | .pbuf => c.pbufSize
  | .rbuf => c.rbufSize
  | .txbuf => c.txSize
  | .rxbuf => c.rxSize
  | .acc => c.accCap

/-- `X[i]` (00_scope.md R13). An index at or beyond the buffer's size is not used by any command in a state that meets R45
(log 14). -/
def State.byteAt (s : State) (b : Buffer) (i : Nat) : Byte := s.mem.get (b.start + i)

/-- `X[i] <- v` (00_scope.md R13). -/
def State.putByte (s : State) (b : Buffer) (i : Nat) (v : Byte) : State := { s with mem := s.mem.put (b.start + i) v }

/-- `X[0..n-1]` as a sequence (00_scope.md R13). -/
def State.bytesOf (s : State) (b : Buffer) (n : Nat) : List Byte := s.mem.bytes b.start n

/-- `X[i..] <- vs`, byte by byte (00_scope.md R13). -/
def State.putBytes (s : State) (b : Buffer) (i : Nat) (vs : List Byte) : State :=
  { s with mem := s.mem.putBytes (b.start + i) vs }

/-- Slot k of the response queue (10_state.md R35). -/
def State.slot (s : State) (k : Nat) : Slot := s.slots.getD k (Slot.cleared 0)

/-- The frame a slot holds: Q_DATA[s][0..Q_LEN[s]-1] (10_state.md R35). -/
def Slot.frame (q : Slot) : List Byte := q.data.take q.len

/-- `Q_DATA[s][0..L-1] <- f; Q_LEN[s] <- L`: the bytes beyond L keep what they held (42_queue.md R201). -/
def Slot.store (q : Slot) (f : List Byte) : Slot := { len := f.length, data := f ++ q.data.drop f.length }

/-- The slot index of entry e, counted from the oldest (10_state.md R35). -/
def State.slotIndex (s : State) (e : Nat) : Nat := (s.qHead + e) % s.cfg.qDepth

/-- The queue's abstract value: its entries, oldest first (10_state.md R35, R36). -/
def State.entries (s : State) : List (List Byte) := (List.range s.qCount).map (fun e => (s.slot (s.slotIndex e)).frame)

end Sys2Proof.Machine
end

