-- ==== Sys2Proof/Machine/Operands.lean ====
section
/-! DEFINITION. The operand checks and operand computations of the commands, with exact arithmetic on naturals
(00_scope.md R18). -/

namespace Sys2Proof.Machine

/-- ParityArgsOK(last, pidx): last at or after the start of the range, index 1; pidx > last; pidx + 1 < PBUF_LEN
(40_codec_toolkit.md R123). -/
def State.parityArgsOk (s : State) (last pidx : Nat) : Bool :=
  decide (parityStart ≤ last) && decide (last < pidx) && decide (pidx + 1 < s.pbufLen)

/-- BeArgsOK(off, w): off + w <= PBUF_LEN (40_codec_toolkit.md R136). -/
def State.beArgsOk (s : State) (off w : Nat) : Bool := decide (off + w ≤ s.pbufLen)

/-- XorRange(last): the XOR of PBUF[1..last], from the index where every parity range starts (40_codec_toolkit.md R121). -/
def State.xorRange (s : State) (last : Nat) : Byte :=
  (List.range (last + 1 - parityStart)).foldl (fun x k => x ^^^ s.byteAt .pbuf (parityStart + k)) 0x00#8

/-- Fold8(x): the three halving steps, and bit 0 of what they leave (40_codec_toolkit.md R122; 93_implementation_defined.md
I2: every halving order gives the same bit). -/
def fold8 (x : Byte) : BitVec 1 :=
  let f := x ^^^ (x >>> 4)
  let f := f ^^^ (f >>> 2)
  let f := f ^^^ (f >>> 1)
  f.extractLsb' 0 1

/-- The parity bit as a byte, 0x00 or 0x01, as the BIT commands compare and store it (R130, R131). -/
def parityByte (p : BitVec 1) : Byte := p.setWidth 8

/-- A status byte is valid when it is READY_BYTE or BUSY_BYTE (43_handshake.md R231). -/
def validStatus (c : Config) (s : Byte) : Bool := s == c.readyByte || s == c.busyByte

/-- HEN[t / 32][t mod 32], the handler bit of type t (10_state.md R33; 41_router.md R161). -/
def State.handlerBit (s : State) (t : Byte) : Bool := s.hen.getLsbD t.toNat

/-- Routable(t): t is in KNOWN_TYPES and its handler bit is 1 (41_router.md R161). -/
def State.routable (s : State) (t : Byte) : Bool := s.cfg.knows t && s.handlerBit t

end Sys2Proof.Machine
end

