-- ==== Sys2Proof/Machine/ByteOrder.lean ====
section
/-! DEFINITION. The big-endian field commands GET16, GET32, PUT16 and PUT32 (40_codec_toolkit.md section 6; 20_memory.md
R67). Any byte offset is legal (R137). -/

namespace Sys2Proof.Machine

/-- The operand check of the four commands: ARG when off + w > PBUF_LEN (R136). -/
def withBeArgs (off w : Nat) (run : State → State) (s : State) : State :=
  if s.beArgsOk off w then run s else s.fail .arg

/-- The 16-bit field at an offset: the byte at the lower offset is the more significant (R138). -/
def State.field16 (s : State) (off : Nat) : BitVec 16 := s.byteAt .pbuf off ++ s.byteAt .pbuf (off + 1)

/-- The 32-bit field at an offset (R139). -/
def State.field32 (s : State) (off : Nat) : BitVec 32 :=
  s.byteAt .pbuf off ++ s.byteAt .pbuf (off + 1) ++ s.byteAt .pbuf (off + 2) ++ s.byteAt .pbuf (off + 3)

/-- GET16 N (R138). -/
def execGet16 (off : Nat) (s : State) : Host.Outcome State Fault Refusal :=
  inBoth s (withBeArgs off 2 fun s => s.finishOk ((s.field16 off).setWidth 32))

/-- GET32 N (R139). -/
def execGet32 (off : Nat) (s : State) : Host.Outcome State Fault Refusal :=
  inBoth s (withBeArgs off 4 fun s => s.finishOk (s.field32 off))

/-- PUT16 N: DATA[15:8], then DATA[7:0] (R140). -/
def execPut16 (off : Nat) (s : State) : Host.Outcome State Fault Refusal :=
  inBoth s (withBeArgs off 2 fun s =>
    (s.putBytes .pbuf off [s.data.extractLsb' 8 8, s.data.extractLsb' 0 8]).finishOk 0#32)

/-- PUT32 N: DATA[31:24] first, DATA[7:0] last (R141). -/
def execPut32 (off : Nat) (s : State) : Host.Outcome State Fault Refusal :=
  inBoth s (withBeArgs off 4 fun s =>
    (s.putBytes .pbuf off
      [s.data.extractLsb' 24 8, s.data.extractLsb' 16 8, s.data.extractLsb' 8 8, s.data.extractLsb' 0 8]).finishOk 0#32)

end Sys2Proof.Machine
end

