-- ==== Sys2Proof/Machine/Handshake.lean ====
section
/-! DEFINITION. The Handshake Coordinator: CSTATUS, PREPARE and PREPARE_RSP (43_handshake.md). -/

namespace Sys2Proof.Machine

/-- The classification of one transaction (43_handshake.md R230). -/
inductive Handshake where
  | ready
  | busy
  | response
  | unrecognized
deriving DecidableEq, Repr

/-- RESULT[1:0] of a preparation (30_encoding.md R109). -/
def Handshake.code : Handshake → BitVec 2
  | .ready => 0#2
  | .busy => 1#2
  | .response => 2#2
  | .unrecognized => 3#2

/-- RESULT of a preparation: the state in 1:0, the consumed flag in bit 8, every other bit 0 (30_encoding.md R109). -/
def handshakeResult (h : Handshake) (consumed : Bool) : Word := 0#23 ++ BitVec.ofBool consumed ++ 0#6 ++ h.code

/-- The end of a preparation: the TX_LEN bytes, the classification and RC = OK (43_handshake.md R233). -/
def State.finishPrepare (s : State) (tx : List Byte) (h : Handshake) (consumed : Bool) : State :=
  let s := { s.putBytes .txbuf 0 tx with txLen := tx.length }
  s.finishOk (handshakeResult h consumed)

/-- Prepare(s, N, rp, L) for the status byte b and the transmit length n; `rsp` is the response, and `none` is "no
response" (43_handshake.md R233). -/
def prepareTx (b : Byte) (n : Nat) (rsp : Option (List Byte)) (s : State) : State :=
  let fallback := List.replicate (min n s.cfg.txSize) b
  if n = 0 ∨ s.cfg.txSize < n ∨ validStatus s.cfg b = false then s.finishPrepare fallback .unrecognized false
  else
    match rsp with
    | some f =>
      if n < f.length then s.finishPrepare fallback .unrecognized false
      else s.finishPrepare (f ++ List.replicate (n - f.length) b) .response true
    | none =>
      s.finishPrepare (List.replicate n b) (if b = s.cfg.readyByte then .ready else .busy) false

/-- The response PREPARE_RSP offers: RBUF[0..RSP_LEN-1], and none when RSP_LEN = 0 (43_handshake.md R235). -/
def State.offeredResponse (s : State) : Option (List Byte) :=
  if 0 < s.rspLen then some (s.bytesOf .rbuf s.rspLen) else none

/-- The advertised status byte for a capacity: BUSY when the occupancy has reached it (43_handshake.md R232). -/
def State.advertised (s : State) (capacity : Nat) : Byte :=
  if capacity ≤ s.qCount then s.cfg.busyByte else s.cfg.readyByte

/-- CSTATUS N (R232). -/
def execCstatus (n : Nat) (s : State) : Host.Outcome State Fault Refusal :=
  inBoth s (fun s => s.finishOk (zextByte (s.advertised n)))

/-- PREPARE B, N (R234). -/
def execPrepare (b : Byte) (n : Nat) (s : State) : Host.Outcome State Fault Refusal := onlyIn .idle s (prepareTx b n none)

/-- PREPARE_RSP B, N (R235). -/
def execPrepareRsp (b : Byte) (n : Nat) (s : State) : Host.Outcome State Fault Refusal :=
  onlyIn .idle s (fun s => prepareTx b n s.offeredResponse s)

end Sys2Proof.Machine
end

