-- ==== Sys2Proof/Machine/Parity.lean ====
section
/-! DEFINITION. The parity commands: schemes BYTE, BIT and NONE, functions calculate, check and set
(40_codec_toolkit.md sections 2 to 4). -/

namespace Sys2Proof.Machine

/-- The operand check every BYTE and BIT command makes first: ARG when it fails (R123, R267). -/
def withParityArgs (last pidx : Nat) (run : State → State) (s : State) : State :=
  if s.parityArgsOk last pidx then run s else s.fail .arg

/-- The bit parity of PBUF[1..last] (R122). -/
def State.bitParity (s : State) (last : Nat) : BitVec 1 := fold8 (s.xorRange last)

/-- PCALC_BYTE B, N (R126). -/
def execPcalcByte (last pidx : Nat) (s : State) : Host.Outcome State Fault Refusal :=
  inBoth s (withParityArgs last pidx fun s => s.finishOk (zextByte (s.xorRange last)))

/-- PCHK_BYTE B, N (R127). -/
def execPchkByte (last pidx : Nat) (s : State) : Host.Outcome State Fault Refusal :=
  inBoth s (withParityArgs last pidx fun s =>
    if s.byteAt .pbuf pidx = s.xorRange last then s.finishOk (zextByte (s.xorRange last)) else s.fail .parity)

/-- PSET_BYTE B, N (R128). -/
def execPsetByte (last pidx : Nat) (s : State) : Host.Outcome State Fault Refusal :=
  inBoth s (withParityArgs last pidx fun s =>
    let x := s.xorRange last
    (s.putByte .pbuf pidx x).finishOk (zextByte x))

/-- PCALC_BIT B, N (R129). -/
def execPcalcBit (last pidx : Nat) (s : State) : Host.Outcome State Fault Refusal :=
  inBoth s (withParityArgs last pidx fun s => s.finishOk ((s.bitParity last).setWidth 32))

/-- PCHK_BIT B, N (R130). -/
def execPchkBit (last pidx : Nat) (s : State) : Host.Outcome State Fault Refusal :=
  inBoth s (withParityArgs last pidx fun s =>
    if s.byteAt .pbuf pidx &&& 0x01#8 = parityByte (s.bitParity last) then s.finishOk ((s.bitParity last).setWidth 32)
    else s.fail .parity)

/-- PSET_BIT B, N: bits 7..1 of the byte at N are kept (R131). -/
def execPsetBit (last pidx : Nat) (s : State) : Host.Outcome State Fault Refusal :=
  inBoth s (withParityArgs last pidx fun s =>
    let p := s.bitParity last
    (s.putByte .pbuf pidx ((s.byteAt .pbuf pidx &&& 0xFE#8) ||| parityByte p)).finishOk (p.setWidth 32))

/-- PCALC_NONE: no operand check, RC = OK, RESULT = 0 (R132). -/
def execPcalcNone (s : State) : Host.Outcome State Fault Refusal := inBoth s (fun s => s.finishOk 0#32)

/-- PCHK_NONE (R133). -/
def execPchkNone (s : State) : Host.Outcome State Fault Refusal := inBoth s (fun s => s.finishOk 0#32)

/-- PSET_NONE: no buffer is written (R134). -/
def execPsetNone (s : State) : Host.Outcome State Fault Refusal := inBoth s (fun s => s.finishOk 0#32)

end Sys2Proof.Machine
end

