-- ==== Sys2Proof/Machine/Queue.lean ====
section
/-! DEFINITION. The Response Queue: PUSH, POP and COUNT over the ring of 10_state.md R35 (42_queue.md). -/

namespace Sys2Proof.Machine

/-- Store a frame in the slot after the newest entry (42_queue.md R201). -/
def State.enqueue (s : State) (f : List Byte) : State :=
  let k := (s.qHead + s.qCount) % s.cfg.qDepth
  { s with slots := s.slots.set k ((s.slot k).store f), qCount := s.qCount + 1 }

/-- Release the oldest entry: the head moves on, and the slot keeps its bytes (42_queue.md R203). -/
def State.dequeue (s : State) : State :=
  { s with qHead := (s.qHead + 1) % s.cfg.qDepth, qCount := s.qCount - 1 }

/-- PUSH's effect, its checks in the order ARG, full, too long (42_queue.md R201; 60_exceptions.md R267). -/
def pushFrame (s : State) : State :=
  if s.pbufLen = 0 then s.fail .arg
  else if s.qCount = s.cfg.qDepth then s.fail .alloc
  else if s.cfg.qFrameMax < s.pbufLen then s.fail .alloc
  else
    let s := s.enqueue (s.bytesOf .pbuf s.pbufLen)
    s.finishOk (zext s.qCount)

/-- POP's effect for a destination of capacity c (42_queue.md R203; 60_exceptions.md R267). -/
def popFrame (c : Nat) (s : State) : State :=
  if s.cfg.rbufSize < c then s.fail .arg
  else if s.qCount = 0 then { s with rspLen := 0 }.finishOk 0#32
  else
    let front := s.slot s.qHead
    if c < front.len then { s with rspLen := 0 }.fail .range
    else
      let s := { s.putBytes .rbuf 0 front.frame with rspLen := front.len }
      s.dequeue.finishOk (zext front.len)

/-- PUSH (R201). -/
def execPush (s : State) : Host.Outcome State Fault Refusal := inBoth s pushFrame

/-- POP N (R203). -/
def execPop (n : Nat) (s : State) : Host.Outcome State Fault Refusal := onlyIn .idle s (popFrame n)

/-- COUNT (R204). -/
def execCount (s : State) : Host.Outcome State Fault Refusal := inBoth s (fun s => s.finishOk (zext s.qCount))

end Sys2Proof.Machine
end

