-- ==== Sys2Proof/Machine/Router.lean ====
section
/-! DEFINITION. The Frame Router: the byte step, the byte loop, the whole-frame policy, and the commands FEED and ACK
(41_router.md). -/

namespace Sys2Proof.Machine

/-- What the byte step returns to the byte loop (41_router.md R162). -/
inductive Flow where
  /-- CONTINUE. -/
  | cont
  /-- SUSPEND: a frame was handed to its handler. -/
  | suspend
deriving DecidableEq, Repr

/-- The dispatch decision for the frame ACC[0..ACC_LEN-1] (R163): DispatchAcc(). -/
def dispatchAcc (s : State) : Flow × State :=
  let t := s.byteAt .acc typeIndex
  if s.routable t then
    (.suspend, { s with dspType := t, dspLen := s.accLen, dspOff := 0, phase := .dispatch })
  else
    (.cont, { s with accLen := 0 })

/-- The smallest k with TAIL_SCAN_START <= k <= ACC_LEN-1 and ACC[k] = REQ_TAIL (R162). -/
def State.findTail (s : State) : Option Nat :=
  (List.range s.accLen).find? (fun k => decide (tailScanStart ≤ k) && s.byteAt .acc k == reqTail)

/-- `ACC[ACC_LEN] <- b; ACC_LEN <- ACC_LEN + 1` (R162). -/
def State.appendAcc (s : State) (b : Byte) : State :=
  { s.putByte .acc s.accLen b with accLen := s.accLen + 1 }

/-- The byte step AccByte(b): append, then the header check, then the tail scan, then the capacity check, in this order
(R162, D16). -/
def accByte (b : Byte) (s : State) : Flow × State :=
  let s := s.appendAcc b
  if s.byteAt .acc hdrIndex ≠ reqHdr then
    (.cont, { s with accLen := 0 })
  else
    match s.findTail with
    | some i => dispatchAcc { s with accLen := i + 1 }
    | none => if s.accLen = s.cfg.accCap then (.cont, { s with accLen := 0 }) else (.cont, s)

/-- One turn of the byte loop: read RXBUF[FEED_POS] now, advance FEED_POS, run the byte step (R165, D38). -/
def loopTurn (s : State) : Flow × State :=
  accByte (s.byteAt .rxbuf s.feedPos) { s with feedPos := s.feedPos + 1 }

/-- The byte loop with a bound on its turns (R165). -/
def runTurns : Nat → State → State
  | 0, s => s
  | turns + 1, s =>
    if s.feedPos < s.feedEnd then
      match loopTurn s with
      | (.cont, s') => runTurns turns s'
      | (.suspend, s') => s'
    else s

/-- RunLoop(): until FEED_POS = FEED_END or a dispatch (R165). Every turn advances FEED_POS by one, so FEED_END - FEED_POS
turns are all it can take. -/
def runLoop (s : State) : State := runTurns (s.feedEnd - s.feedPos) s

/-- The chunk RXBUF[FEED_POS..FEED_END-1] has a frame's minimum length, header and tail (R168). -/
def State.chunkIsFrame (s : State) : Bool :=
  decide (minFrame ≤ s.feedEnd - s.feedPos) && s.byteAt .rxbuf (s.feedPos + hdrIndex) == reqHdr &&
    s.byteAt .rxbuf (s.feedEnd - 1) == reqTail

/-- WholeFrame(): the chunk is taken as exactly one frame, dispatched or dropped silently; FEED_POS moves to its end
(R168). -/
def wholeFrame (s : State) : State :=
  let t := s.byteAt .rxbuf (s.feedPos + typeIndex)
  if s.chunkIsFrame && s.routable t then
    { s with feedPos := s.feedEnd, dspType := t, dspLen := s.feedEnd - s.feedPos, dspOff := s.feedPos, phase := .dispatch }
  else { s with feedPos := s.feedEnd }

/-- The end of FEED and ACK: RC <- OK and RESULT <- 1 if the command stopped at a dispatch, else 0 (R164, R166). -/
def State.finishRouter (s : State) : State := s.finishOk (dispatchResult s.phase)

/-- FEED's effect in IDLE (R164). -/
def feedChunk (n : Nat) (s : State) : State :=
  if s.cfg.rxSize < s.rxOff + n then s.fail .arg
  else
    let s := { s with feedPos := s.rxOff, feedEnd := s.rxOff + n }
    match s.cfg.policy with
    | .accumulate => (runLoop s).finishRouter
    | .wholeFrame => (wholeFrame s).finishRouter

/-- ACK's effect in DISPATCH (R166; R169 for WHOLE_FRAME). -/
def ackDispatch (s : State) : State :=
  let s := { s with phase := .idle }
  match s.cfg.policy with
  | .accumulate => (runLoop { s with accLen := 0 }).finishRouter
  | .wholeFrame => s.finishRouter

/-- FEED N (R164). -/
def execFeed (n : Nat) (s : State) : Host.Outcome State Fault Refusal := onlyIn .idle s (feedChunk n)

/-- ACK (R166). -/
def execAck (s : State) : Host.Outcome State Fault Refusal := onlyIn .dispatch s ackDispatch

end Sys2Proof.Machine
end

