-- ==== Sys2Proof/Machine/Validator.lean ====
section
/-! DEFINITION. The header, type and tail validators VALREQ and VALRSP (40_codec_toolkit.md section 1). -/

namespace Sys2Proof.Machine

/-- Validate PBUF[0..l-1] as a frame of type t with the given sentinels: ARG first, then FRAME, else OK; RESULT is 0 in every
case (40_codec_toolkit.md R124, R125). -/
def validateFrame (hdr tail t : Byte) (l : Nat) (s : State) : State :=
  if l < minFrame ∨ s.pbufLen < l then s.fail .arg
  else if s.byteAt .pbuf hdrIndex ≠ hdr ∨ s.byteAt .pbuf typeIndex ≠ t ∨ s.byteAt .pbuf (l - 1) ≠ tail then s.fail .frame
  else s.finishOk 0#32

/-- VALREQ B, N (R124). -/
def execValreq (t : Byte) (l : Nat) (s : State) : Host.Outcome State Fault Refusal :=
  inBoth s (validateFrame reqHdr reqTail t l)

/-- VALRSP B, N (R125). -/
def execValrsp (t : Byte) (l : Nat) (s : State) : Host.Outcome State Fault Refusal :=
  inBoth s (validateFrame rspHdr rspTail t l)

end Sys2Proof.Machine
end

