-- ==== Sys2Proof/Machine/Dispatch.lean ====
section
/-! DEFINITION. The meaning of every command, one arm each (30_encoding.md R104; 60_exceptions.md R260). -/

namespace Sys2Proof.Machine

def exec (i : Instr) (s : State) : Host.Outcome State Fault Refusal :=
  match i with
  | .feed n => Sys2Proof.Machine.execFeed n s
  | .ack => Sys2Proof.Machine.execAck s
  | .push => Sys2Proof.Machine.execPush s
  | .pop n => Sys2Proof.Machine.execPop n s
  | .count => Sys2Proof.Machine.execCount s
  | .cstatus n => Sys2Proof.Machine.execCstatus n s
  | .prepare b n => Sys2Proof.Machine.execPrepare b n s
  | .prepareRsp b n => Sys2Proof.Machine.execPrepareRsp b n s
  | .valreq t l => Sys2Proof.Machine.execValreq t l s
  | .valrsp t l => Sys2Proof.Machine.execValrsp t l s
  | .pcalcByte last pidx => Sys2Proof.Machine.execPcalcByte last pidx s
  | .pchkByte last pidx => Sys2Proof.Machine.execPchkByte last pidx s
  | .psetByte last pidx => Sys2Proof.Machine.execPsetByte last pidx s
  | .pcalcBit last pidx => Sys2Proof.Machine.execPcalcBit last pidx s
  | .pchkBit last pidx => Sys2Proof.Machine.execPchkBit last pidx s
  | .psetBit last pidx => Sys2Proof.Machine.execPsetBit last pidx s
  | .pcalcNone => Sys2Proof.Machine.execPcalcNone s
  | .pchkNone => Sys2Proof.Machine.execPchkNone s
  | .psetNone => Sys2Proof.Machine.execPsetNone s
  | .get16 off => Sys2Proof.Machine.execGet16 off s
  | .get32 off => Sys2Proof.Machine.execGet32 off s
  | .put16 off => Sys2Proof.Machine.execPut16 off s
  | .put32 off => Sys2Proof.Machine.execPut32 off s

end Sys2Proof.Machine
end

