-- ==== Sys2Proof/Machine/Registers.lean ====
section
/-! DEFINITION. The control and status registers: their offsets, what a read returns and what a host write does
(10_state.md R23 to R43). -/

namespace Sys2Proof.Machine

/-- The CSRs of the register map (10_state.md R42). -/
inductive Csr where
  | cmd
  | result
  | status
  | qcount
  | accLen
  | pbufLen
  | rspLen
  | txLen
  | data
  | rxOff
  | feedPos
  | feedEnd
  | dspType
  | dspLen
  | dspOff
  /-- HEN0..HEN7. -/
  | hen (k : Nat)
  /-- CFG0..CFG4. -/
  | cfg (k : Nat)
deriving DecidableEq, Repr

/-- The CSR at an offset; none at a reserved or unaligned offset (10_state.md R42, R43; 20_memory.md R62). -/
def csrAt : Nat → Option Csr
  | 0x000 => some .cmd
  | 0x004 => some .result
  | 0x008 => some .status
  | 0x00C => some .qcount
  | 0x010 => some .accLen
  | 0x014 => some .pbufLen
  | 0x018 => some .rspLen
  | 0x01C => some .txLen
  | 0x020 => some .data
  | 0x024 => some .rxOff
  | 0x028 => some .feedPos
  | 0x02C => some .feedEnd
  | 0x030 => some .dspType
  | 0x034 => some .dspLen
  | 0x038 => some .dspOff
  | 0x040 => some (.hen 0)
  | 0x044 => some (.hen 1)
  | 0x048 => some (.hen 2)
  | 0x04C => some (.hen 3)
  | 0x050 => some (.hen 4)
  | 0x054 => some (.hen 5)
  | 0x058 => some (.hen 6)
  | 0x05C => some (.hen 7)
  | 0x060 => some (.cfg 0)
  | 0x064 => some (.cfg 1)
  | 0x068 => some (.cfg 2)
  | 0x06C => some (.cfg 3)
  | 0x070 => some (.cfg 4)
  | _ => none

/-- CFG1[16]: 0 = ACCUMULATE, 1 = WHOLE_FRAME (30_encoding.md R110). -/
def Policy.bit : Policy → Bool
  | .accumulate => false
  | .wholeFrame => true

/-- CFG0..CFG4, bit field by bit field (10_state.md R40). -/
def cfgWord (c : Config) : Nat → Word
  | 0 => BitVec.ofNat 16 c.qDepth ++ BitVec.ofNat 16 c.accCap
  | 1 => 0#15 ++ BitVec.ofBool (Policy.bit c.policy) ++ BitVec.ofNat 16 c.qFrameMax
  | 2 => 0#8 ++ c.pollByte ++ c.busyByte ++ c.readyByte
  | 3 => BitVec.ofNat 16 c.rbufSize ++ BitVec.ofNat 16 c.pbufSize
  | 4 => BitVec.ofNat 16 c.rxSize ++ BitVec.ofNat 16 c.txSize
  | _ => 0#32

/-- HENk: bit j is the handler bit of type 32k + j (10_state.md R33). -/
def State.henWord (s : State) (k : Nat) : Word := s.hen.extractLsb' (32 * k) 32

/-- The value a 32-bit read of a CSR returns. CMD reads 0 (10_state.md R23 to R40). -/
def State.readCsr (s : State) : Csr → Word
  | .cmd => 0#32
  | .result => s.result
  | .status => s.statusWord
  | .qcount => zext s.qCount
  | .accLen => zext16 s.accLen
  | .pbufLen => zext16 s.pbufLen
  | .rspLen => zext16 s.rspLen
  | .txLen => zext16 s.txLen
  | .data => s.data
  | .rxOff => zext16 s.rxOff
  | .feedPos => zext16 s.feedPos
  | .feedEnd => zext16 s.feedEnd
  | .dspType => zextByte s.dspType
  | .dspLen => zext16 s.dspLen
  | .dspOff => zext16 s.dspOff
  | .hen k => s.henWord k
  | .cfg k => cfgWord s.cfg k

/-- The legal value a write of w stores in a length or offset register: min(w[15:0], size) (10_state.md R34, R37, R38). -/
def warl (w : Word) (size : Nat) : Nat := min (w.extractLsb' 0 16).toNat size

/-- The bits of the handler table that HENk shows. -/
def henMask (k : Nat) : BitVec 256 := 0xFFFFFFFF#256 <<< (32 * k)

/-- A write of w to HENk: each bit of a known type takes the written value, a bit of an unknown type stays 0, and the other
seven registers keep theirs (10_state.md R33). -/
def State.writeHen (s : State) (k : Nat) (w : Word) : State :=
  { s with hen := (s.hen &&& ~~~(henMask k)) ||| ((w.setWidth 256 <<< (32 * k)) &&& s.cfg.knownTypes) }

/-- A host write of w to a CSR other than CMD: the read-write and W1C registers take their rule's value, a write to a
read-only CSR is ignored (10_state.md R26, R27, R33, R34, R37, R38, R43; 20_memory.md R77). A write to CMD is a command and
is not written here. -/
def State.writeCsr (s : State) (w : Word) : Csr → State
  | .status => s.writeStatus w
  | .pbufLen => { s with pbufLen := warl w s.cfg.pbufSize }
  | .rspLen => { s with rspLen := warl w s.cfg.rbufSize }
  | .data => { s with data := w }
  | .rxOff => { s with rxOff := warl w s.cfg.rxSize }
  | .hen k => s.writeHen k w
  | .cmd | .result | .qcount | .accLen | .txLen | .feedPos | .feedEnd | .dspType | .dspLen | .dspOff | .cfg _ => s

end Sys2Proof.Machine
end

