-- ==== Sys2Proof/Machine/Bus.lean ====
section
/-! DEFINITION. The bus slave port: the address map, what a read returns, what a write does, the bus error, and how a command
word written to CMD is executed or refused (20_memory.md R60 to R66; 60_exceptions.md R260 to R266). -/

namespace Sys2Proof.Machine

/-- The size of the block's window in bytes: 32 KiB (20_memory.md R60). -/
def windowSize : Nat := 0x8000

/-- The window offset of a bus address, and none outside the window at BASE (20_memory.md R60; log 6). -/
def offsetOf (c : Config) (addr : Nat) : Option Nat :=
  if c.base ≤ addr ∧ addr < c.base + windowSize then some (addr - c.base) else none

/-- What an 8-bit access can reach (20_memory.md R63 to R65). -/
inductive ByteTarget where
  /-- Byte k of a buffer. -/
  | buffer (b : Buffer) (k : Nat)
  /-- Byte k of the DFRAME view. -/
  | dframe (k : Nat)
deriving DecidableEq, Repr

/-- Byte k of a buffer, and none at or beyond its size (20_memory.md R61). -/
def inBuffer (c : Config) (b : Buffer) (k : Nat) : Option ByteTarget :=
  if k < b.size c then some (.buffer b k) else none

/-- What an 8-bit access at a window offset reaches; none where it is a bus error (20_memory.md R61, R66). -/
def byteTarget (c : Config) (off : Nat) : Option ByteTarget :=
  let k := off % 0x1000
  match off / 0x1000 with
  | 1 => inBuffer c .pbuf k
  | 2 => inBuffer c .rbuf k
  | 3 => inBuffer c .txbuf k
  | 4 => inBuffer c .rxbuf k
  | 5 => inBuffer c .acc k
  | 6 => some (.dframe k)
  | _ => none

/-- A byte of the DFRAME view: the dispatched frame while the dispatch lasts, else 0x00 (20_memory.md R65). -/
def State.dframeByte (s : State) (k : Nat) : Byte :=
  if s.phase = .dispatch ∧ k < s.dspLen then
    match s.cfg.policy with
    | .accumulate => s.byteAt .acc k
    | .wholeFrame => s.byteAt .rxbuf (s.dspOff + k)
  else 0x00#8

/-- The byte an admitted 8-bit read returns (20_memory.md R63 to R65). -/
def State.readByte (s : State) : ByteTarget → Byte
  | .buffer b k => s.byteAt b k
  | .dframe k => s.dframeByte k

/-- An admitted 8-bit write: PBUF, RBUF and RXBUF take the byte, a write to TXBUF, ACC or DFRAME is ignored
(20_memory.md R63). -/
def State.writeByte (s : State) (v : Byte) : ByteTarget → State
  | .buffer .pbuf k => s.putByte .pbuf k v
  | .buffer .rbuf k => s.putByte .rbuf k v
  | .buffer .rxbuf k => s.putByte .rxbuf k v
  | .buffer .txbuf _ => s
  | .buffer .acc _ => s
  | .dframe _ => s

/-- The port answers an access. -/
def State.answer (s : State) (r : Response) : State := { s with response := r }

/-- `raise BusError`: the error response to the master, and no change of the block's state (60_exceptions.md R265). -/
def State.raiseBusError (s : State) : State := s.answer .busError

/-- ExecuteCommand(v): an illegal OP sets ILLCMD and is checked before the phase; a legal command runs (60_exceptions.md R260,
R264, R266). -/
def executeCommand (v : Word) (s : State) : Host.Outcome State Fault Refusal :=
  match decode v with
  | .error _ => .next s.rejectIll
  | .ok i => exec i s

/-- MemRead(addr, n) at a window offset (20_memory.md R66). -/
def busRead (w : Width) (off : Nat) (s : State) : State :=
  match w with
  | .w32 =>
    match csrAt off with
    | some c => s.answer (.word (s.readCsr c))
    | none => s.raiseBusError
  | .w16 => s.raiseBusError
  | .w8 =>
    match byteTarget s.cfg off with
    | some t => s.answer (.byte (s.readByte t))
    | none => s.raiseBusError

/-- MemWrite(addr, 1, v) at a window offset (20_memory.md R63, R66). -/
def busWrite8 (off : Nat) (v : Byte) (s : State) : State :=
  match byteTarget s.cfg off with
  | some t => (s.answer .done).writeByte v t
  | none => s.raiseBusError

/-- MemWrite(addr, 4, v) at a window offset: a write to CMD executes a command (20_memory.md R66). -/
def busWrite32 (off : Nat) (v : Word) (s : State) : Host.Outcome State Fault Refusal :=
  match csrAt off with
  | some .cmd => executeCommand v (s.answer .done)
  | some c => .next ((s.answer .done).writeCsr v c)
  | none => .next s.raiseBusError

/-- An access at a bus address, given what it does at a window offset; an address outside the window is no access of this
block (20_memory.md R60; DESIGN CHOICE, safe, log 6). -/
def atAddress (addr : Nat) (s : State) (run : Nat → Host.Outcome State Fault Refusal) :
    Host.Outcome State Fault Refusal :=
  match offsetOf s.cfg addr with
  | some off => run off
  | none => .fault .outsideWindow

/-- The reset event: every item of state takes its reset value, the parameters stay, and what has not yet arrived is untouched
(70_reset_and_hazards.md R290, R291; log 15). -/
def State.resetEvent (s : State) : State := { State.resetOf s.cfg with pending := s.pending }

/-- Serve one access (20_memory.md R66, R70). -/
def serve (a : Access) (s : State) : Host.Outcome State Fault Refusal :=
  match a with
  | .read w addr => atAddress addr s fun off => .next (busRead w off s)
  | .write8 addr v => atAddress addr s fun off => .next (busWrite8 off v s)
  | .write16 addr _ => atAddress addr s fun _ => .next s.raiseBusError
  | .write32 addr v => atAddress addr s fun off => busWrite32 off v s
  | .reset => .next s.resetEvent

/-- One step of the port: serve the oldest access that has arrived. With none, the block does nothing (00_scope.md R7; log 4).
A configuration that breaks R9 or R10 is refused (00_scope.md R10; log 7). -/
def servePort (s : State) : Host.Outcome State Fault Refusal :=
  if s.cfg.wellFormed then
    match s.pending with
    | [] => .next s
    | a :: rest => serve a { s with pending := rest }
  else .refused .invalidConfiguration

/-- The access that issues a command word: a 32-bit write to CMD at offset 0x000 (10_state.md R23). -/
def commandAccess (c : Config) (w : Word) : Access := .write32 c.base w

/-! The access notation of host programs (30_encoding.md R103): `W32 off, v`, `R32 off`, `W8 off, v`, `R8 off` and
`CMD text`. -/

/-- `W32 off, v`. -/
def w32 (c : Config) (off : Nat) (v : Word) : Access := .write32 (c.base + off) v

/-- `R32 off`. -/
def r32 (c : Config) (off : Nat) : Access := .read .w32 (c.base + off)

/-- `W8 off, v`. -/
def w8 (c : Config) (off : Nat) (v : Byte) : Access := .write8 (c.base + off) v

/-- `R8 off`. -/
def r8 (c : Config) (off : Nat) : Access := .read .w8 (c.base + off)

/-- `CMD text`: a W32 of the command's encoding to offset 0x000. -/
def cmd (c : Config) (i : Instr) : Access := commandAccess c (encode i)

end Sys2Proof.Machine
end

