-- ==== Sys2Proof/Machine/Step.lean ====
section
/-! DEFINITION. One step of the machine: one access of the bus port, or the reset event (00_scope.md R7, R15; 20_memory.md R70;
70_reset_and_hazards.md R290). -/

namespace Sys2Proof.Machine

/-- One step: the oldest pending access is served, whole (20_memory.md R71). -/
def step (s : State) : Host.Outcome State Fault Refusal := servePort s

/-- The state whose very next step runs the command word w of nbits bits. The SFSR fetches nothing (10_state.md R21): a
command arrives as a write to CMD, so the write is put first among the accesses that have arrived (log 2). -/
def State.withFetchWord (s : State) (nbits w : Nat) : State :=
  { s with pending := commandAccess s.cfg (BitVec.ofNat 32 (w % 2 ^ nbits)) :: s.pending }

end Sys2Proof.Machine
end

