-- ==== Sys2Proof/Safety.lean ====
section
/-! DEFINITION. What the statements about this machine are made of: the invariants of 10_state.md R45, when the machine may
stop, and the abstract views (a byte automaton for the router, a history of frames for the queue) that the machine is compared
with. Nothing here is used by the machine. -/

namespace Sys2Proof.Machine

/-! ## Invariants -/

/-- A window offset that is a byte of some buffer (20_memory.md R61). -/
def insideBuffer (c : Config) (a : Nat) : Bool :=
  [Buffer.pbuf, .rbuf, .txbuf, .rxbuf, .acc].any fun b => decide (b.start ≤ a ∧ a < b.start + b.size c)

/-- Only bytes of a buffer are ever listed: nothing is written beyond a buffer (41_router.md R175; 20_memory.md R61). -/
abbrev State.MemInside (s : State) : Prop := ∀ cell ∈ s.mem, insideBuffer s.cfg cell.1 = true

/-- 10_state.md R45, first bullet; and 41_router.md R168: WHOLE_FRAME never writes ACC_LEN. -/
abbrev State.AccBounded (s : State) : Prop :=
  (s.phase = .idle → s.accLen < s.cfg.accCap) ∧
  (s.cfg.policy = .accumulate → s.phase = .dispatch → 4 ≤ s.accLen ∧ s.accLen = s.dspLen ∧ s.dspLen ≤ s.cfg.accCap) ∧
  (s.cfg.policy = .wholeFrame → s.accLen = 0)

/-- The dispatched frame, which stays latched after ACK (10_state.md R32): at ACC[0..DSP_LEN-1] with DSP_OFF = 0 in
ACCUMULATE, inside RXBUF in WHOLE_FRAME, and of at least 4 bytes while the dispatch lasts (41_router.md R163, R168, R178). -/
abbrev State.FrameLatched (s : State) : Prop :=
  (s.cfg.policy = .accumulate → s.dspOff = 0 ∧ s.dspLen ≤ s.cfg.accCap) ∧
  (s.cfg.policy = .wholeFrame → s.dspOff + s.dspLen ≤ s.cfg.rxSize) ∧
  (s.phase = .dispatch → 4 ≤ s.dspLen)

/-- 10_state.md R45: when ACC_LEN >= 1, ACC[0] = 0xAA. -/
abbrev State.AccHeader (s : State) : Prop := 1 ≤ s.accLen → s.byteAt .acc 0 = 0xAA#8

/-- 10_state.md R45: no k with 3 <= k <= ACC_LEN-1 has ACC[k] = 0x55, except k = ACC_LEN-1 when PHASE = DISPATCH in
ACCUMULATE. -/
abbrev State.AccNoTail (s : State) : Prop :=
  ∀ k, k < s.accLen → 3 ≤ k → s.byteAt .acc k = 0x55#8 →
    k + 1 = s.accLen ∧ s.phase = .dispatch ∧ s.cfg.policy = .accumulate

/-- While a dispatch lasts in ACCUMULATE the frame's last byte is the tail (41_router.md R178). -/
abbrev State.AccClosed (s : State) : Prop :=
  s.cfg.policy = .accumulate → s.phase = .dispatch → s.byteAt .acc (s.dspLen - 1) = 0x55#8

/-- The ring: Q_HEAD and Q_COUNT in range, Q_DEPTH slots of Q_FRAME_MAX bytes, and 1 <= Q_LEN <= Q_FRAME_MAX for every entry
(10_state.md R20, R35, R45). -/
abbrev State.QueueBounded (s : State) : Prop :=
  s.qHead < s.cfg.qDepth ∧ s.qCount ≤ s.cfg.qDepth ∧ s.slots.length = s.cfg.qDepth ∧
  (∀ q ∈ s.slots, q.data.length = s.cfg.qFrameMax ∧ q.len ≤ s.cfg.qFrameMax) ∧
  (∀ e, e < s.qCount → 1 ≤ (s.slot (s.slotIndex e)).len)

/-- The cursors: FEED_POS <= FEED_END <= RX_SIZE (R45), equal when PHASE = IDLE (10_state.md R31) and in WHOLE_FRAME
(41_router.md R168). -/
abbrev State.CursorsBounded (s : State) : Prop :=
  s.feedPos ≤ s.feedEnd ∧ s.feedEnd ≤ s.cfg.rxSize ∧ (s.phase = .idle → s.feedPos = s.feedEnd) ∧
  (s.cfg.policy = .wholeFrame → s.feedPos = s.feedEnd)

/-- The lengths and the offset a host sets: PBUF_LEN <= PBUF_SIZE, RSP_LEN <= RBUF_SIZE, TX_LEN <= TX_SIZE,
RX_OFF <= RX_SIZE (R45). -/
abbrev State.LengthsBounded (s : State) : Prop :=
  s.pbufLen ≤ s.cfg.pbufSize ∧ s.rspLen ≤ s.cfg.rbufSize ∧ s.txLen ≤ s.cfg.txSize ∧ s.rxOff ≤ s.cfg.rxSize

/-- The handler bits of types outside KNOWN_TYPES are 0 (10_state.md R33). -/
abbrev State.HenKnown (s : State) : Prop := s.hen &&& ~~~s.cfg.knownTypes = 0#256

/-- What holds between commands, in every state a block with a legal configuration can reach (10_state.md R45 and the rules
named at each part). -/
structure State.Inv (s : State) : Prop where
  config : s.cfg.wellFormed = true
  canonical : s.mem.wf = true
  inside : s.MemInside
  accBounded : s.AccBounded
  accHeader : s.AccHeader
  accNoTail : s.AccNoTail
  accClosed : s.AccClosed
  latched : s.FrameLatched
  queue : s.QueueBounded
  cursors : s.CursorsBounded
  lengths : s.LengthsBounded
  handlers : s.HenKnown

/-! ## Safe runs -/

/-- An access whose bus address lies in the window of the block, or the reset event (20_memory.md R60). -/
def Access.inWindow (c : Config) : Access → Bool
  | .read _ addr => (offsetOf c addr).isSome
  | .write8 addr _ => (offsetOf c addr).isSome
  | .write16 addr _ => (offsetOf c addr).isSome
  | .write32 addr _ => (offsetOf c addr).isSome
  | .reset => true

/-- Every access that has arrived is one of this block. -/
def State.wellAddressed (s : State) : Bool := s.pending.all (fun a => a.inWindow s.cfg)

/-- The offsets a width admits: Admitted(addr, n) as 20_memory.md R66 writes it, from the address map of R61 and the reserved
CSR offsets of 10_state.md R43. -/
def admitted (c : Config) (w : Width) (off : Nat) : Bool :=
  match w with
  | .w32 => decide (off ≤ 0x0FC) && off % 4 == 0 && !(off == 0x03C || decide (0x074 ≤ off))
  | .w16 => false
  | .w8 => insideBuffer c off || decide (0x6000 ≤ off ∧ off ≤ 0x6FFF)

/-! ## Commands -/

/-- The "phase" column of 30_encoding.md R104: the phases in which a command executes. -/
def acceptedIn : Instr → Phase → Bool
  | .feed _, p => p == .idle
  | .ack, p => p == .dispatch
  | .pop _, p => p == .idle
  | .prepare _ _, p => p == .idle
  | .prepareRsp _ _, p => p == .idle
  | .push, _ | .count, _ | .cstatus _, _ | .valreq _ _, _ | .valrsp _ _, _ | .pcalcByte _ _, _ | .pchkByte _ _, _
  | .psetByte _ _, _ | .pcalcBit _ _, _ | .pchkBit _ _, _ | .psetBit _ _, _ | .pcalcNone, _ | .pchkNone, _ | .psetNone, _
  | .get16 _, _ | .get32 _, _ | .put16 _, _ | .put32 _, _ => true

/-- The bits of a command word that the command uses: OP, and B and N where the opcode map gives it such an operand
(30_encoding.md R101, R104). -/
def usedBits : Instr → Word
  | .ack | .push | .count | .pcalcNone | .pchkNone | .psetNone => 0xFF000000#32
  | .feed _ | .pop _ | .cstatus _ | .get16 _ | .get32 _ | .put16 _ | .put32 _ => 0xFF00FFFF#32
  | .prepare _ _ | .prepareRsp _ _ | .valreq _ _ | .valrsp _ _ | .pcalcByte _ _ | .pchkByte _ _ | .psetByte _ _
  | .pcalcBit _ _ | .pchkBit _ _ | .psetBit _ _ => 0xFFFFFFFF#32

/-- The number of 1 bits of a byte (40_codec_toolkit.md R122: popcount). -/
def ones (b : Byte) : Nat := ((List.range 8).filter (fun j => b.getLsbD j)).length

/-- The number of 1 bits of PBUF[1..last] (40_codec_toolkit.md R122). -/
def State.coveredOnes (s : State) (last : Nat) : Nat := ((List.range last).map (fun k => ones (s.byteAt .pbuf (k + 1)))).sum

/-- The number of bits in which PBUF[1..last] differs between two states (40_codec_toolkit.md R135). -/
def coveredFlips (s s' : State) (last : Nat) : Nat :=
  ((List.range last).map (fun k => ones (s.byteAt .pbuf (k + 1) ^^^ s'.byteAt .pbuf (k + 1)))).sum

/-- The command word the next step writes to CMD, if its access is one. -/
def State.nextWord (s : State) : Option Word :=
  match s.pending with
  | .write32 addr w :: _ => if offsetOf s.cfg addr = some 0 then some w else none
  | _ => none

/-- The command the next step issues, if it issues one. -/
def State.nextCommand (s : State) : Option Instr :=
  match s.nextWord with
  | some w => (decode w).toOption
  | none => none

/-! ## The router as an automaton on byte sequences -/

/-- The accumulated bytes ACC[0..ACC_LEN-1] (10_state.md R29). -/
def State.accBytes (s : State) : List Byte := s.bytesOf .acc s.accLen

/-- The chunk of n bytes a FEED presents: RXBUF[RX_OFF..RX_OFF+n-1] (41_router.md R164). -/
def State.chunk (s : State) (n : Nat) : List Byte := s.mem.bytes (Buffer.start .rxbuf + s.rxOff) n

/-- The byte step on a plain sequence, with the short form of the tail test that 41_router.md R167 allows. -/
def absByte (cap : Nat) (routable : Byte → Bool) (acc : List Byte) (b : Byte) : Flow × List Byte :=
  let f := acc ++ [b]
  if f.head? ≠ some 0xAA#8 then (.cont, [])
  else if 4 ≤ f.length ∧ b = 0x55#8 then
    if routable (f.getD 1 0#8) then (.suspend, f) else (.cont, [])
  else if f.length = cap then (.cont, [])
  else (.cont, f)

/-- The byte loop on a plain sequence: whether it stopped at a dispatch, what is accumulated, and what is left of the
chunk. -/
def absRun (cap : Nat) (routable : Byte → Bool) : List Byte → List Byte → Flow × List Byte × List Byte
  | acc, [] => (.cont, acc, [])
  | acc, b :: rest =>
    match absByte cap routable acc b with
    | (.cont, acc') => absRun cap routable acc' rest
    | (.suspend, acc') => (.suspend, acc', rest)

/-- What the router reports of a dispatch: the type and the frame the handler reads through DFRAME (41_router.md R170). -/
def State.dispatched (s : State) : Byte × List Byte := (s.dspType, (List.range s.dspLen).map s.dframeByte)

/-- Answer up to k dispatches by ACK, and report them in order. -/
def ackAll : Nat → State → List (Byte × List Byte) × State
  | 0, s => ([], s)
  | k + 1, s =>
    if s.phase = .dispatch then
      match exec .ack s with
      | .next t => (s.dispatched :: (ackAll k t).1, (ackAll k t).2)
      | .fault _ => ([], s)
      | .refused _ => ([], s)
    else ([], s)

/-- Feed n bytes and answer every dispatch by ACK, with no other action during a dispatch (41_router.md R173). A chunk of n
bytes dispatches at most n times. -/
def feedAcked (n : Nat) (s : State) : List (Byte × List Byte) × State :=
  match exec (.feed n) s with
  | .next t => ackAll (n + 1) t
  | .fault _ => ([], s)
  | .refused _ => ([], s)

/-! ## The queue as a history of frames -/

/-- The frame a step from s to t appended to the queue: a PUSH that ended with OK (42_queue.md R201). -/
def pushedBy (s t : State) : List (List Byte) :=
  match s.nextCommand with
  | some .push => if t.rc = .ok then [s.bytesOf .pbuf s.pbufLen] else []
  | _ => []

/-- The frame a step from s to t handed out in RBUF: a POP that executed and ended with OK and a length above 0
(42_queue.md R203). -/
def poppedBy (s t : State) : List (List Byte) :=
  match s.nextCommand with
  | some (.pop _) => if s.phase = .idle ∧ t.rc = .ok ∧ t.rspLen ≠ 0 then [t.bytesOf .rbuf t.rspLen] else []
  | _ => []

/-- k steps, with the frames pushed and popped on the way, in order; none when the machine stops before. -/
def queueHistory : Nat → State → Option (List (List Byte) × List (List Byte) × State)
  | 0, s => some ([], [], s)
  | k + 1, s =>
    match step s with
    | .next t =>
      match queueHistory k t with
      | some (pushed, popped, u) => some (pushedBy s t ++ pushed, poppedBy s t ++ popped, u)
      | none => none
    | .fault _ => none
    | .refused _ => none

/-- Two states that differ at most in where the queue keeps its entries (10_state.md R36). -/
def SameButRing (s s' : State) : Prop :=
  s' = { s with slots := s'.slots, qHead := s'.qHead } ∧ s.entries = s'.entries

end Sys2Proof.Machine
end

