-- ==== Sys2Proof/Certificates/Slice0/Obligations.lean ====
section
/-! DEFINITION. The statements about the SFSR model, for the provers. Each names the rule of spec/ it is made from. A frame is
written "t = s with these fields of t": every other field of the state is unchanged. -/

open Sys2Proof Sys2Proof.Machine

/-! ## Command words -/

/-- 30_encoding.md R100, R101, R103, R104: no bit of an encoding is dropped. -/
def Obligations.DecodeOfEncodeIsTheCommand : Prop :=
  ∀ i : Instr, i.wellFormed = true → decode (encode i) = .ok i

/-- 30_encoding.md R101, R103, R107: decoding then encoding gives the word back with its unused fields 0. -/
def Obligations.EncodeOfDecodeKeepsTheUsedBits : Prop :=
  ∀ (w : Word) (i : Instr), decode w = .ok i → i.wellFormed = true ∧ encode i = w &&& usedBits i

/-- 30_encoding.md R106, 60_exceptions.md R264: the illegal OP values, and what a word with one does, in either phase. -/
def Obligations.IllegalOpOnlySetsIllcmd : Prop :=
  let illegal : Nat → Bool := fun op =>
    decide (op ≤ 0x0F) || decide (0x12 ≤ op ∧ op ≤ 0x1F) || decide (0x23 ≤ op ∧ op ≤ 0x2F) ||
    decide (0x33 ≤ op ∧ op ≤ 0x3F) || decide (0x42 ≤ op ∧ op ≤ 0x4F) || decide (op = 0x53) || decide (op = 0x57) ||
    decide (0x5B ≤ op ∧ op ≤ 0x5F) || decide (0x64 ≤ op ∧ op ≤ 0xFF)
  ((List.range 256).filter illegal).length = 233 ∧
  (∀ w : Word, (∃ i, decode w = .ok i) ↔ illegal (w.extractLsb' 24 8).toNat = false) ∧
  ∀ (s : State) (w : Word) (rest : List Access), s.cfg.wellFormed = true →
    s.pending = .write32 s.cfg.base w :: rest → illegal (w.extractLsb' 24 8).toNat = true →
    ∃ t, step s = .next t ∧ t = { s with pending := rest, response := t.response, illCmd := true }

/-- 30_encoding.md R104; the words of 95_test_vectors.md V-E5 and of its programs, one for each unit group. -/
def Obligations.WrittenOutCommandWordsDecode : Prop :=
  decode 0x10000005#32 = .ok (.feed 5) ∧ decode 0x11000000#32 = .ok .ack ∧ decode 0x20FFFFFF#32 = .ok .push ∧
  decode 0x21000010#32 = .ok (.pop 16) ∧ decode 0x32A50010#32 = .ok (.prepareRsp 0xA5#8 16) ∧
  decode 0x41040008#32 = .ok (.valrsp 0x04#8 8) ∧ decode 0x50050006#32 = .ok (.pcalcByte 5 6) ∧
  decode 0x56050006#32 = .ok (.psetBit 5 6) ∧ decode 0x59FFFFFF#32 = .ok .pchkNone ∧
  decode 0x61000002#32 = .ok (.get32 2) ∧ decode 0x53000000#32 = .error (.illegalOp 0x53#8)

/-! ## Steps -/

/-- 60_exceptions.md R260, 10_state.md R23: a step that serves a write to CMD runs the command its word decodes to. The
pending list and the answer are the model's own (log 2, log 3). -/
def Obligations.StepRunsTheDecodedCommand : Prop :=
  (∀ (s : State) (w : Word) (i : Instr) (rest : List Access), s.cfg.wellFormed = true →
    s.pending = .write32 s.cfg.base w :: rest → decode w = .ok i →
    step s = exec i { s with pending := rest, response := .done }) ∧
  ∀ (s : State) (w : Nat) (i : Instr), s.cfg.wellFormed = true → decodeTableWord 32 w = some i →
    step (s.withFetchWord 32 w) = exec i { s with response := .done }

/-- 00_scope.md R7: with no access on its port the block does not change (the model's reading, log 4). -/
def Obligations.NoAccessNoChange : Prop :=
  ∀ s : State, s.cfg.wellFormed = true → s.pending = [] → step s = .next s

/-- 70_reset_and_hazards.md R291: what the reset event leaves, from any state. -/
def Obligations.ResetEventGivesTheResetValues : Prop :=
  ∀ (s : State) (rest : List Access), s.cfg.wellFormed = true → s.pending = .reset :: rest →
    ∃ t, step s = .next t ∧ t.phase = .idle ∧
      t.accLen = 0 ∧ t.feedPos = 0 ∧ t.feedEnd = 0 ∧ t.dspType = 0#8 ∧ t.dspLen = 0 ∧ t.dspOff = 0 ∧
      (∀ b k, t.byteAt b k = 0x00#8) ∧ t.slots.length = s.cfg.qDepth ∧
      (∀ q ∈ t.slots, q.len = 0 ∧ q.data = List.replicate s.cfg.qFrameMax 0x00#8) ∧
      t.qHead = 0 ∧ t.qCount = 0 ∧ t.rxOff = 0 ∧ t.pbufLen = 0 ∧ t.rspLen = 0 ∧ t.txLen = 0 ∧
      (∀ k, k < 8 → t.henWord k = 0#32) ∧ t.result = 0#32 ∧ t.data = 0#32 ∧ t.statusWord = 0#32 ∧
      (∀ k, cfgWord t.cfg k = cfgWord s.cfg k) ∧ t.cfg = s.cfg

/-- 00_scope.md R10 (with the size and alignment constraints of R9): the machine refuses exactly the configurations that are not
an SFSR. -/
def Obligations.OnlyAnSfsrRuns : Prop :=
  ∀ s : State, step s = .refused .invalidConfiguration ↔
    ¬ ((4 ≤ s.cfg.accCap ∧ s.cfg.accCap ≤ 4096) ∧ (1 ≤ s.cfg.qDepth ∧ s.cfg.qDepth ≤ 65535) ∧
      (1 ≤ s.cfg.qFrameMax ∧ s.cfg.qFrameMax ≤ 4096) ∧ (4 ≤ s.cfg.pbufSize ∧ s.cfg.pbufSize ≤ 4096) ∧
      (1 ≤ s.cfg.rbufSize ∧ s.cfg.rbufSize ≤ 4096) ∧ (1 ≤ s.cfg.txSize ∧ s.cfg.txSize ≤ 4096) ∧
      (1 ≤ s.cfg.rxSize ∧ s.cfg.rxSize ≤ 4096) ∧ 32768 ∣ s.cfg.base ∧
      s.cfg.readyByte ≠ s.cfg.busyByte ∧ s.cfg.readyByte ≠ s.cfg.pollByte ∧ s.cfg.busyByte ≠ s.cfg.pollByte ∧
      (∀ b ∈ [s.cfg.readyByte, s.cfg.busyByte, s.cfg.pollByte],
        b ≠ 0xAA#8 ∧ b ≠ 0xAB#8 ∧ b ≠ 0x55#8 ∧ b ≠ 0x54#8 ∧ s.cfg.knownTypes.getLsbD b.toNat = false))

/-- A run whose accesses are all addressed to the block never stops: commands, refusals and bus errors are all next states
(60_exceptions.md R262, R265, R269; that an access outside the window stops the model is its own choice, log 6). -/
def Obligations.WellAddressedRunsNeverStop : Prop :=
  (∀ (k : Nat) (s : State), s.cfg.wellFormed = true → s.wellAddressed = true →
    ∃ t, Host.Core.run Sys2Proof.core k s = .next t) ∧
  ∀ (s : State) (w : Width) (addr : Nat) (rest : List Access), s.cfg.wellFormed = true →
    s.pending = .read w addr :: rest → (addr < s.cfg.base ∨ s.cfg.base + 0x8000 ≤ addr) →
    step s = .fault .outsideWindow

/-! ## Invariants and whole-machine rules -/

/-- 10_state.md R45 at reset, for every legal configuration. -/
def Obligations.InvariantHoldsAtReset : Prop :=
  State.reset.Inv ∧ ∀ c : Config, c.wellFormed = true → (State.resetOf c).Inv

/-- 10_state.md R45 (with the parts Safety.lean adds to it): every step keeps the invariant, from every state that has it. -/
def Obligations.EveryStepKeepsTheInvariant : Prop :=
  ∀ s t : State, s.Inv → step s = .next t → t.Inv

/-- 00_scope.md R9, 10_state.md R41: no parameter can be changed at run time. -/
def Obligations.NoStepChangesAParameter : Prop :=
  ∀ s t : State, step s = .next t → t.cfg = s.cfg

/-- The model's own (log 11): every step keeps the canonical form of the memory, so that equal buffers are equal data. -/
def Obligations.EveryStepKeepsTheMemoryCanonical : Prop :=
  ∀ s t : State, s.mem.wf = true → step s = .next t → t.mem.wf = true

/-- 10_state.md R30, 70_reset_and_hazards.md R294: only FEED enters DISPATCH; only ACK, or reset, leaves it. -/
def Obligations.OnlyFeedAndAckMoveThePhase : Prop :=
  ∀ s t : State, step s = .next t →
    (s.phase = .idle → t.phase = .dispatch → ∃ n, s.nextCommand = some (.feed n)) ∧
    (s.phase = .dispatch → t.phase = .idle → s.nextCommand = some .ack ∨ s.pending.head? = some .reset)

/-- 10_state.md R24, R25: a command that executes and ends with an error writes 0 to RESULT; a refused one writes neither RC
nor RESULT. -/
def Obligations.ErrorsZeroTheResult : Prop :=
  ∀ (i : Instr) (s t : State), exec i s = .next t →
    (acceptedIn i s.phase = true → t.rc ≠ .ok → t.result = 0#32) ∧
    (acceptedIn i s.phase = false → t.rc = s.rc ∧ t.result = s.result)

/-- 60_exceptions.md R263: the commands a phase refuses set SEQERR and change nothing else. -/
def Obligations.WrongPhaseOnlySetsSeqerr : Prop :=
  ∀ s : State,
    (s.phase = .dispatch → ∀ (b : Byte) (n : Nat),
      exec (.feed n) s = .next { s with seqErr := true } ∧ exec (.pop n) s = .next { s with seqErr := true } ∧
      exec (.prepare b n) s = .next { s with seqErr := true } ∧
      exec (.prepareRsp b n) s = .next { s with seqErr := true }) ∧
    (s.phase = .idle → exec .ack s = .next { s with seqErr := true })

/-- 10_state.md R25, R26, R44; 60_exceptions.md R277: the refusal flags are cleared only by a W1C write to STATUS or by
reset. -/
def Obligations.RefusalFlagsAreSticky : Prop :=
  ∀ s t : State, step s = .next t →
    (s.seqErr = true → t.seqErr = false → s.pending.head? = some .reset ∨
      ∃ addr w, s.pending.head? = some (.write32 addr w) ∧ addr = s.cfg.base + 0x008 ∧ w.getLsbD 8 = true) ∧
    (s.illCmd = true → t.illCmd = false → s.pending.head? = some .reset ∨
      ∃ addr w, s.pending.head? = some (.write32 addr w) ∧ addr = s.cfg.base + 0x008 ∧ w.getLsbD 9 = true)

/-- 10_state.md R27, R33, R34, R37, R44: every command completes, and none writes DATA, HEN, RX_OFF, PBUF_LEN or ILLCMD, nor
SEQERR when its phase accepts it. -/
def Obligations.NoCommandWritesTheHostRegisters : Prop :=
  ∀ (i : Instr) (s : State), ∃ t, exec i s = .next t ∧
    t.data = s.data ∧ t.hen = s.hen ∧ t.rxOff = s.rxOff ∧ t.pbufLen = s.pbufLen ∧ t.illCmd = s.illCmd ∧
    t.pending = s.pending ∧ t.response = s.response ∧ (acceptedIn i s.phase = true → t.seqErr = s.seqErr)

/-- 10_state.md R29, R37, R38, R39: which commands write which buffer and its length; no command writes RXBUF. -/
def Obligations.EachBufferHasItsWriters : Prop :=
  ∀ (i : Instr) (s t : State), s.Inv → exec i s = .next t →
    ((∃ k, k < 4096 ∧ t.byteAt .pbuf k ≠ s.byteAt .pbuf k) →
      (∃ l p, i = .psetByte l p) ∨ (∃ l p, i = .psetBit l p) ∨ (∃ o, i = .put16 o) ∨ (∃ o, i = .put32 o)) ∧
    (((∃ k, k < 4096 ∧ t.byteAt .rbuf k ≠ s.byteAt .rbuf k) ∨ t.rspLen ≠ s.rspLen) → ∃ n, i = .pop n) ∧
    (((∃ k, k < 4096 ∧ t.byteAt .txbuf k ≠ s.byteAt .txbuf k) ∨ t.txLen ≠ s.txLen) →
      (∃ b n, i = .prepare b n) ∨ (∃ b n, i = .prepareRsp b n)) ∧
    (((∃ k, k < 4096 ∧ t.byteAt .acc k ≠ s.byteAt .acc k) ∨ t.accLen ≠ s.accLen) → (∃ n, i = .feed n) ∨ i = .ack) ∧
    (∀ k, k < 4096 → t.byteAt .rxbuf k = s.byteAt .rxbuf k)

/-! ## The router -/

/-- 41_router.md R164, 60_exceptions.md R267: a chunk that does not fit RXBUF is ARG, and nothing else changes. -/
def Obligations.FeedBeyondRxbufIsArg : Prop :=
  ∀ (s : State) (n : Nat), s.phase = .idle → s.cfg.rxSize < s.rxOff + n →
    exec (.feed n) s = .next { s with rc := .arg, result := 0#32 }

/-- 41_router.md R162, R163, R164, R165: in ACCUMULATE, FEED runs the byte automaton over its chunk, up to the end or to the
next dispatch. -/
def Obligations.FeedRunsTheByteAutomaton : Prop :=
  ∀ (s : State) (n : Nat), s.Inv → s.phase = .idle → s.cfg.policy = .accumulate → s.rxOff + n ≤ s.cfg.rxSize →
    ∃ t flow acc rest, exec (.feed n) s = .next t ∧
      absRun s.cfg.accCap s.routable s.accBytes (s.chunk n) = (flow, acc, rest) ∧
      t.accBytes = acc ∧ t.accLen = acc.length ∧ t.feedEnd = s.rxOff + n ∧ t.feedPos + rest.length = t.feedEnd ∧
      t.rc = .ok ∧
      (flow = .cont → rest = [] ∧ t.phase = .idle ∧ t.result = 0#32 ∧ t.dspType = s.dspType ∧ t.dspLen = s.dspLen ∧
        t.dspOff = s.dspOff) ∧
      (flow = .suspend → t.phase = .dispatch ∧ t.result = 1#32 ∧ t.dspType = acc.getD 1 0#8 ∧ t.dspLen = acc.length ∧
        t.dspOff = 0) ∧
      (∀ a, (a < 0x5000 ∨ 0x5000 + s.cfg.accCap ≤ a) → t.mem.get a = s.mem.get a) ∧
      t = { s with mem := t.mem, accLen := t.accLen, feedPos := t.feedPos, feedEnd := t.feedEnd, phase := t.phase,
                   dspType := t.dspType, dspLen := t.dspLen, dspOff := t.dspOff, rc := t.rc, result := t.result }

/-- 41_router.md R166: in ACCUMULATE, ACK empties the accumulator and runs the byte automaton over the rest of the chunk. -/
def Obligations.AckResumesTheByteAutomaton : Prop :=
  ∀ s : State, s.Inv → s.phase = .dispatch → s.cfg.policy = .accumulate →
    ∃ t flow acc rest, exec .ack s = .next t ∧
      absRun s.cfg.accCap s.routable [] (s.mem.bytes (0x4000 + s.feedPos) (s.feedEnd - s.feedPos)) = (flow, acc, rest) ∧
      t.accBytes = acc ∧ t.accLen = acc.length ∧ t.feedPos + rest.length = s.feedEnd ∧ t.rc = .ok ∧
      (flow = .cont → rest = [] ∧ t.phase = .idle ∧ t.result = 0#32 ∧ t.dspType = s.dspType ∧ t.dspLen = s.dspLen ∧
        t.dspOff = s.dspOff) ∧
      (flow = .suspend → t.phase = .dispatch ∧ t.result = 1#32 ∧ t.dspType = acc.getD 1 0#8 ∧ t.dspLen = acc.length ∧
        t.dspOff = 0) ∧
      (∀ a, (a < 0x5000 ∨ 0x5000 + s.cfg.accCap ≤ a) → t.mem.get a = s.mem.get a) ∧
      t = { s with mem := t.mem, accLen := t.accLen, feedPos := t.feedPos, phase := t.phase, dspType := t.dspType,
                   dspLen := t.dspLen, dspOff := t.dspOff, rc := t.rc, result := t.result }

/-- 41_router.md R168: in WHOLE_FRAME, FEED dispatches its chunk as one frame, or drops it; ACC is not touched. -/
def Obligations.WholeFrameFeedTakesOneFrame : Prop :=
  ∀ (s : State) (n : Nat), s.phase = .idle → s.cfg.policy = .wholeFrame → s.rxOff + n ≤ s.cfg.rxSize →
    exec (.feed n) s = .next
      (if 4 ≤ n ∧ s.byteAt .rxbuf s.rxOff = 0xAA#8 ∧ s.byteAt .rxbuf (s.rxOff + n - 1) = 0x55#8 ∧
          s.routable (s.byteAt .rxbuf (s.rxOff + 1)) = true then
        { s with feedPos := s.rxOff + n, feedEnd := s.rxOff + n, dspType := s.byteAt .rxbuf (s.rxOff + 1), dspLen := n,
                 dspOff := s.rxOff, phase := .dispatch, rc := .ok, result := 1#32 }
      else { s with feedPos := s.rxOff + n, feedEnd := s.rxOff + n, rc := .ok, result := 0#32 })

/-- 41_router.md R166, R169: in WHOLE_FRAME, ACK only ends the dispatch. -/
def Obligations.WholeFrameAckEndsTheDispatch : Prop :=
  ∀ s : State, s.phase = .dispatch → s.cfg.policy = .wholeFrame →
    exec .ack s = .next { s with phase := .idle, rc := .ok, result := 0#32 }

/-- 41_router.md R173: with every dispatch answered by ACK, a chunk fed in two parts makes the dispatches of the whole, in the
same order, and leaves the same ACC and ACC_LEN. Any split is repeated splits in two. -/
def Obligations.ChunkBoundariesDoNotMatter : Prop :=
  ∀ (s : State) (n m : Nat), s.Inv → s.phase = .idle → s.cfg.policy = .accumulate → s.rxOff + (n + m) ≤ s.cfg.rxSize →
    (feedAcked (n + m) s).1 =
      (feedAcked n s).1 ++ (feedAcked m { (feedAcked n s).2 with rxOff := s.rxOff + n }).1 ∧
    (feedAcked (n + m) s).2.accLen = (feedAcked m { (feedAcked n s).2 with rxOff := s.rxOff + n }).2.accLen ∧
    (∀ k, k < s.cfg.accCap → (feedAcked (n + m) s).2.byteAt .acc k =
      (feedAcked m { (feedAcked n s).2 with rxOff := s.rxOff + n }).2.byteAt .acc k) ∧
    (feedAcked (n + m) s).2.phase = .idle ∧
    (feedAcked m { (feedAcked n s).2 with rxOff := s.rxOff + n }).2.phase = .idle

/-- 41_router.md R174: garbage without 0xAA, then a request frame: one dispatch decision, for the frame. -/
def Obligations.GarbageThenFrameDispatchesTheFrame : Prop :=
  ∀ (s : State) (G F : List Byte), s.Inv → s.phase = .idle → s.cfg.policy = .accumulate → s.accLen = 0 →
    0xAA#8 ∉ G → 4 ≤ F.length → F.length ≤ s.cfg.accCap → F.getD 0 0#8 = 0xAA#8 → F.getD (F.length - 1) 0#8 = 0x55#8 →
    (∀ k, 3 ≤ k → k < F.length - 1 → F.getD k 0#8 ≠ 0x55#8) →
    s.rxOff + (G.length + F.length) ≤ s.cfg.rxSize → s.chunk (G.length + F.length) = G ++ F →
    ∃ t, exec (.feed (G.length + F.length)) s = .next t ∧ t.feedPos = s.rxOff + (G.length + F.length) ∧
      (s.routable (F.getD 1 0#8) = true → t.phase = .dispatch ∧ t.result = 1#32 ∧ t.dispatched = (F.getD 1 0#8, F)) ∧
      (s.routable (F.getD 1 0#8) = false → t.phase = .idle ∧ t.result = 0#32 ∧ t.accLen = 0 ∧ t.dspType = s.dspType ∧
        t.dspLen = s.dspLen)

/-- 41_router.md R176, 70_reset_and_hazards.md R300: the first 0x55 at index 3 or above closes the frame there, and the rest of
the chunk waits for ACK. -/
def Obligations.AnInnerTailClosesTheFrameEarly : Prop :=
  ∀ (s : State) (F : List Byte) (k : Nat), s.Inv → s.phase = .idle → s.cfg.policy = .accumulate → s.accLen = 0 →
    F.getD 0 0#8 = 0xAA#8 → 3 ≤ k → k < F.length → k < s.cfg.accCap → F.getD k 0#8 = 0x55#8 →
    (∀ j, 3 ≤ j → j < k → F.getD j 0#8 ≠ 0x55#8) → s.routable (F.getD 1 0#8) = true →
    s.rxOff + F.length ≤ s.cfg.rxSize → s.chunk F.length = F →
    ∃ t, exec (.feed F.length) s = .next t ∧ t.phase = .dispatch ∧ t.dispatched = (F.getD 1 0#8, F.take (k + 1)) ∧
      t.feedPos = s.rxOff + (k + 1) ∧ t.feedEnd = s.rxOff + F.length

/-- 41_router.md R175: a chunk that fits the accumulator and never puts a 0x55 at index 3 or above dispatches nothing, fills the
accumulator and resets it when full, and writes nothing beyond ACC[ACC_CAP-1]. -/
def Obligations.OverflowResetsWithoutOverrun : Prop :=
  ∀ (s : State) (n : Nat), s.Inv → s.phase = .idle → s.cfg.policy = .accumulate → s.accLen = 0 → 1 ≤ n →
    n ≤ s.cfg.accCap → s.rxOff + n ≤ s.cfg.rxSize → (s.chunk n).getD 0 0#8 = 0xAA#8 →
    (∀ k, 3 ≤ k → k < n → (s.chunk n).getD k 0#8 ≠ 0x55#8) →
    ∃ t, exec (.feed n) s = .next t ∧ t.phase = .idle ∧ t.result = 0#32 ∧ t.rc = .ok ∧
      t.accLen = (if n = s.cfg.accCap then 0 else n) ∧ t.feedPos = t.feedEnd ∧
      (∀ k, k < n → t.byteAt .acc k = (s.chunk n).getD k 0#8) ∧
      (∀ a, (a < 0x5000 ∨ 0x5000 + s.cfg.accCap ≤ a) → t.mem.get a = s.mem.get a)

/-- 41_router.md R178: what every dispatched frame satisfies. -/
def Obligations.EveryDispatchedFrameIsWellFormed : Prop :=
  ∀ (s t : State) (i : Instr), s.Inv → exec i s = .next t → t.phase = .dispatch →
    ((s.phase = .idle ∧ ∃ n, i = .feed n) ∨ (s.phase = .dispatch ∧ i = .ack)) →
    t.dframeByte 0 = 0xAA#8 ∧ t.dframeByte (t.dspLen - 1) = 0x55#8 ∧ t.dframeByte 1 = t.dspType ∧
    s.routable t.dspType = true ∧ 4 ≤ t.dspLen ∧
    (s.cfg.policy = .accumulate → t.dspLen ≤ s.cfg.accCap ∧
      ∀ k, 3 ≤ k → k < t.dspLen - 1 → t.dframeByte k ≠ 0x55#8) ∧
    (s.cfg.policy = .wholeFrame → t.dspLen ≤ s.cfg.rxSize)

/-- 41_router.md R167: the tail scan can only find the byte just appended, and the header test can only fail on the byte that
makes ACC_LEN = 1. -/
def Obligations.TailScanFindsOnlyTheLastByte : Prop :=
  ∀ (s : State) (b : Byte), s.Inv → s.phase = .idle →
    (s.appendAcc b).findTail = (if 4 ≤ (s.appendAcc b).accLen ∧ b = 0x55#8 then some s.accLen else none) ∧
    ((s.appendAcc b).byteAt .acc 0 ≠ 0xAA#8 → (s.appendAcc b).accLen = 1)

/-- 41_router.md R177: handshake bytes between frames are discarded; inside a frame such a byte is accumulated. -/
def Obligations.HandshakeBytesBetweenFramesAreDropped : Prop :=
  ∀ (s : State) (n : Nat), s.Inv → s.phase = .idle → s.cfg.policy = .accumulate → s.rxOff + n ≤ s.cfg.rxSize →
    (∀ b ∈ s.chunk n, b = s.cfg.pollByte ∨ b = s.cfg.readyByte ∨ b = s.cfg.busyByte) →
    ∃ t, exec (.feed n) s = .next t ∧ t.phase = .idle ∧ t.result = 0#32 ∧ t.feedPos = s.rxOff + n ∧
      (s.accLen = 0 → t.accLen = 0) ∧
      (1 ≤ s.accLen → s.accLen + n < s.cfg.accCap → t.accBytes = s.accBytes ++ s.chunk n)

/-! ## The response queue -/

/-- 42_queue.md R201: PUSH, its checks in order, and the entry it appends. -/
def Obligations.PushAppendsTheFrameInPbuf : Prop :=
  ∀ s : State, s.QueueBounded →
    (s.pbufLen = 0 → exec .push s = .next { s with rc := .arg, result := 0#32 }) ∧
    (s.pbufLen ≠ 0 → s.qCount = s.cfg.qDepth → exec .push s = .next { s with rc := .alloc, result := 0#32 }) ∧
    (s.pbufLen ≠ 0 → s.qCount ≠ s.cfg.qDepth → s.cfg.qFrameMax < s.pbufLen →
      exec .push s = .next { s with rc := .alloc, result := 0#32 }) ∧
    (s.pbufLen ≠ 0 → s.qCount ≠ s.cfg.qDepth → s.pbufLen ≤ s.cfg.qFrameMax →
      ∃ t, exec .push s = .next t ∧ t.entries = s.entries ++ [s.bytesOf .pbuf s.pbufLen] ∧ t.qCount = s.qCount + 1 ∧
        t.rc = .ok ∧ t.result = BitVec.ofNat 32 (s.qCount + 1) ∧
        t = { s with slots := t.slots, qCount := t.qCount, rc := t.rc, result := t.result })

/-- 42_queue.md R203, R206: POP, its checks in order, the frame it hands out and what it leaves. -/
def Obligations.PopHandsOutTheOldestFrame : Prop :=
  ∀ (s : State) (c : Nat), s.Inv → s.phase = .idle →
    (s.cfg.rbufSize < c → exec (.pop c) s = .next { s with rc := .arg, result := 0#32 }) ∧
    (c ≤ s.cfg.rbufSize → s.entries = [] → exec (.pop c) s = .next { s with rspLen := 0, rc := .ok, result := 0#32 }) ∧
    (∀ f rest, c ≤ s.cfg.rbufSize → s.entries = f :: rest → c < f.length →
      exec (.pop c) s = .next { s with rspLen := 0, rc := .range, result := 0#32 }) ∧
    (∀ f rest, c ≤ s.cfg.rbufSize → s.entries = f :: rest → f.length ≤ c →
      ∃ t, exec (.pop c) s = .next t ∧ t.entries = rest ∧ t.bytesOf .rbuf f.length = f ∧ t.rspLen = f.length ∧
        t.rc = .ok ∧ t.result = BitVec.ofNat 32 f.length ∧ t.qCount + 1 = s.qCount ∧
        t.qHead = (s.qHead + 1) % s.cfg.qDepth ∧
        (∀ a, (a < 0x2000 ∨ 0x2000 + f.length ≤ a) → t.mem.get a = s.mem.get a) ∧
        t = { s with mem := t.mem, rspLen := t.rspLen, qHead := t.qHead, qCount := t.qCount, rc := t.rc,
                     result := t.result })

/-- 42_queue.md R204: COUNT reads the occupancy, in either phase, and QCOUNT reads the same value. -/
def Obligations.CountReadsTheOccupancy : Prop :=
  ∀ s : State, exec .count s = .next { s with rc := .ok, result := BitVec.ofNat 32 s.qCount } ∧
    s.readCsr .qcount = BitVec.ofNat 32 s.qCount

/-- 42_queue.md R205: over any run without a reset, the frames handed out are the frames pushed, in order: what was queued plus
what was pushed is what was popped plus what is left. -/
def Obligations.TheQueueIsFirstInFirstOut : Prop :=
  ∀ (k : Nat) (s t : State) (pushed popped : List (List Byte)), s.Inv → .reset ∉ s.pending →
    queueHistory k s = some (pushed, popped, t) → s.entries ++ pushed = popped ++ t.entries

/-- 10_state.md R36: states with the same entry sequence behave identically: the slot indices, Q_HEAD and the bytes of
unoccupied slots are observable through nothing. -/
def Obligations.OnlyTheEntrySequenceIsObservable : Prop :=
  ∀ s s' t : State, s.Inv → s'.Inv → SameButRing s s' → step s = .next t → ∃ t', step s' = .next t' ∧ SameButRing t t'

/-! ## The handshake coordinator -/

/-- 43_handshake.md R232: CSTATUS advertises BUSY exactly when the occupancy has reached the capacity. -/
def Obligations.CstatusComparesOccupancyWithCapacity : Prop :=
  ∀ (s : State) (n : Nat), exec (.cstatus n) s = .next
    { s with rc := .ok,
             result := BitVec.ofNat 32 (if n ≤ s.qCount then s.cfg.busyByte.toNat else s.cfg.readyByte.toNat) }

/-- 43_handshake.md R233, R234, R236, R237: PREPARE fills TXBUF[0..TX_LEN-1] with the status byte, and classifies. -/
def Obligations.PrepareFillsWithTheStatusByte : Prop :=
  ∀ (s : State) (b : Byte) (n : Nat), s.phase = .idle →
    ∃ t, exec (.prepare b n) s = .next t ∧ t.rc = .ok ∧ t.txLen = min n s.cfg.txSize ∧
      t.result = (if n = 0 ∨ s.cfg.txSize < n ∨ (b ≠ s.cfg.readyByte ∧ b ≠ s.cfg.busyByte) then 3#32
        else if b = s.cfg.readyByte then 0#32 else 1#32) ∧
      (∀ k, k < t.txLen → t.byteAt .txbuf k = b) ∧
      (∀ a, (a < 0x3000 ∨ 0x3000 + t.txLen ≤ a) → t.mem.get a = s.mem.get a) ∧
      t = { s with mem := t.mem, txLen := t.txLen, rc := t.rc, result := t.result }

/-- 43_handshake.md R233, R235, R236, R237: PREPARE_RSP, row by row of the classification. -/
def Obligations.PrepareRspSendsTheResponseWithPadding : Prop :=
  ∀ (s : State) (b : Byte) (n : Nat), s.phase = .idle →
    (s.rspLen = 0 → exec (.prepareRsp b n) s = exec (.prepare b n) s) ∧
    (0 < s.rspLen → ∃ t, exec (.prepareRsp b n) s = .next t ∧ t.rc = .ok ∧ t.txLen = min n s.cfg.txSize ∧
      ((n = 0 ∨ s.cfg.txSize < n ∨ (b ≠ s.cfg.readyByte ∧ b ≠ s.cfg.busyByte) ∨ n < s.rspLen) →
        t.result = 3#32 ∧ ∀ k, k < t.txLen → t.byteAt .txbuf k = b) ∧
      (¬ (n = 0 ∨ s.cfg.txSize < n ∨ (b ≠ s.cfg.readyByte ∧ b ≠ s.cfg.busyByte) ∨ n < s.rspLen) →
        t.result = 0x102#32 ∧ (∀ k, k < s.rspLen → t.byteAt .txbuf k = s.byteAt .rbuf k) ∧
        ∀ k, s.rspLen ≤ k → k < n → t.byteAt .txbuf k = b) ∧
      (∀ a, (a < 0x3000 ∨ 0x3000 + t.txLen ≤ a) → t.mem.get a = s.mem.get a) ∧
      t = { s with mem := t.mem, txLen := t.txLen, rc := t.rc, result := t.result })

/-- 43_handshake.md R238: POLL_BYTE given as the status byte always gives UNRECOGNIZED, and fills TXBUF. -/
def Obligations.PollByteAsStatusIsUnrecognized : Prop :=
  ∀ (s : State) (n : Nat), s.cfg.wellFormed = true → s.phase = .idle →
    (∃ t, exec (.prepare s.cfg.pollByte n) s = .next t ∧ t.result = 3#32 ∧ t.rc = .ok ∧ t.txLen = min n s.cfg.txSize ∧
      ∀ k, k < t.txLen → t.byteAt .txbuf k = s.cfg.pollByte) ∧
    (∃ t, exec (.prepareRsp s.cfg.pollByte n) s = .next t ∧ t.result = 3#32 ∧ t.rc = .ok ∧
      t.txLen = min n s.cfg.txSize ∧ ∀ k, k < t.txLen → t.byteAt .txbuf k = s.cfg.pollByte)

/-! ## The frame codec toolkit -/

/-- 40_codec_toolkit.md R124: VALREQ checks the length first, then header, type and tail. -/
def Obligations.ValreqChecksLengthThenSentinels : Prop :=
  ∀ (s : State) (ty : Byte) (l : Nat), exec (.valreq ty l) s = .next
    (if l < 4 ∨ s.pbufLen < l then { s with rc := .arg, result := 0#32 }
     else if s.byteAt .pbuf 0 ≠ 0xAA#8 ∨ s.byteAt .pbuf 1 ≠ ty ∨ s.byteAt .pbuf (l - 1) ≠ 0x55#8 then
       { s with rc := .frame, result := 0#32 }
     else { s with rc := .ok, result := 0#32 })

/-- 40_codec_toolkit.md R125: VALRSP is VALREQ with the response sentinels. -/
def Obligations.ValrspChecksLengthThenSentinels : Prop :=
  ∀ (s : State) (ty : Byte) (l : Nat), exec (.valrsp ty l) s = .next
    (if l < 4 ∨ s.pbufLen < l then { s with rc := .arg, result := 0#32 }
     else if s.byteAt .pbuf 0 ≠ 0xAB#8 ∨ s.byteAt .pbuf 1 ≠ ty ∨ s.byteAt .pbuf (l - 1) ≠ 0x54#8 then
       { s with rc := .frame, result := 0#32 }
     else { s with rc := .ok, result := 0#32 })

/-- 40_codec_toolkit.md R121, R123, R126, R127, R128: the byte-parity commands, with the XOR of PBUF[1..last]. -/
def Obligations.ByteParityCommandsUseTheXor : Prop :=
  ∀ (s : State) (last pidx : Nat) (x : Byte),
    x = (List.range last).foldl (fun y k => y ^^^ s.byteAt .pbuf (k + 1)) 0#8 →
    (¬ (1 ≤ last ∧ last < pidx ∧ pidx + 1 < s.pbufLen) → ∀ i ∈ [Instr.pcalcByte last pidx, .pchkByte last pidx,
      .psetByte last pidx], exec i s = .next { s with rc := .arg, result := 0#32 }) ∧
    (1 ≤ last → last < pidx → pidx + 1 < s.pbufLen →
      exec (.pcalcByte last pidx) s = .next { s with rc := .ok, result := BitVec.ofNat 32 x.toNat } ∧
      exec (.pchkByte last pidx) s = .next
        (if s.byteAt .pbuf pidx = x then { s with rc := .ok, result := BitVec.ofNat 32 x.toNat }
         else { s with rc := .parity, result := 0#32 }) ∧
      ∃ t, exec (.psetByte last pidx) s = .next t ∧ t.rc = .ok ∧ t.result = BitVec.ofNat 32 x.toNat ∧
        (∀ a, t.mem.get a = if a = 0x1000 + pidx then x else s.mem.get a) ∧
        t = { s with mem := t.mem, rc := t.rc, result := t.result })

/-- 40_codec_toolkit.md R122, R123, R129, R130, R131: the bit-parity commands, with the parity of the number of 1 bits of
PBUF[1..last]; PSET_BIT keeps bits 7..1 of the byte it writes. -/
def Obligations.BitParityCommandsCountTheOnes : Prop :=
  ∀ (s : State) (last pidx p : Nat), p = s.coveredOnes last % 2 →
    (¬ (1 ≤ last ∧ last < pidx ∧ pidx + 1 < s.pbufLen) → ∀ i ∈ [Instr.pcalcBit last pidx, .pchkBit last pidx,
      .psetBit last pidx], exec i s = .next { s with rc := .arg, result := 0#32 }) ∧
    (1 ≤ last → last < pidx → pidx + 1 < s.pbufLen →
      exec (.pcalcBit last pidx) s = .next { s with rc := .ok, result := BitVec.ofNat 32 p } ∧
      exec (.pchkBit last pidx) s = .next
        (if (s.byteAt .pbuf pidx).toNat % 2 = p then { s with rc := .ok, result := BitVec.ofNat 32 p }
         else { s with rc := .parity, result := 0#32 }) ∧
      ∃ t, exec (.psetBit last pidx) s = .next t ∧ t.rc = .ok ∧ t.result = BitVec.ofNat 32 p ∧
        (t.byteAt .pbuf pidx).toNat = 2 * ((s.byteAt .pbuf pidx).toNat / 2) + p ∧
        (∀ a, a ≠ 0x1000 + pidx → t.mem.get a = s.mem.get a) ∧
        t = { s with mem := t.mem, rc := t.rc, result := t.result })

/-- 40_codec_toolkit.md R132, R133, R134: the accessors of scheme NONE report success whatever PBUF holds. -/
def Obligations.NoneParityCommandsAlwaysSucceed : Prop :=
  ∀ (s : State) (i : Instr), i = .pcalcNone ∨ i = .pchkNone ∨ i = .psetNone →
    exec i s = .next { s with rc := .ok, result := 0#32 }

/-- 40_codec_toolkit.md R135, first item: a check after a set with the same operands gives OK, in both schemes. -/
def Obligations.ParityCheckAfterSetSucceeds : Prop :=
  ∀ (s : State) (last pidx : Nat), 1 ≤ last → last < pidx → pidx + 1 < s.pbufLen →
    (∃ t u, exec (.psetByte last pidx) s = .next t ∧ exec (.pchkByte last pidx) t = .next u ∧ u.rc = .ok) ∧
    (∃ t u, exec (.psetBit last pidx) s = .next t ∧ exec (.pchkBit last pidx) t = .next u ∧ u.rc = .ok)

/-- 40_codec_toolkit.md R135, second item: the byte scheme catches every flip of one bit of PBUF[1..last] or of the parity
byte. -/
def Obligations.ByteParityCatchesEveryOneBitFlip : Prop :=
  ∀ (s s' t : State) (last pidx k j : Nat), 1 ≤ last → last < pidx → pidx + 1 < s.pbufLen → s'.pbufLen = s.pbufLen →
    exec (.pchkByte last pidx) s = .next t → t.rc = .ok → j < 8 → ((1 ≤ k ∧ k ≤ last) ∨ k = pidx) →
    s'.byteAt .pbuf k = s.byteAt .pbuf k ^^^ (1#8 <<< j) → (∀ m, m ≠ k → s'.byteAt .pbuf m = s.byteAt .pbuf m) →
    ∃ t', exec (.pchkByte last pidx) s' = .next t' ∧ t'.rc = .parity ∧ t'.result = 0#32

/-- 40_codec_toolkit.md R135, third item: the bit scheme turns from OK to PARITY, or back, exactly when the covered bits and bit
0 of the parity byte differ in an odd number of places; bits 7..1 of the parity byte do not matter. -/
def Obligations.BitParityCountsFlips : Prop :=
  ∀ (s s' : State) (last pidx : Nat), 1 ≤ last → last < pidx → pidx + 1 < s.pbufLen → s'.pbufLen = s.pbufLen →
    ∃ t t', exec (.pchkBit last pidx) s = .next t ∧ exec (.pchkBit last pidx) s' = .next t' ∧
      ((t'.rc = .ok ↔ t.rc = .ok) ↔
        (coveredFlips s s' last + ((s.byteAt .pbuf pidx).toNat % 2 + (s'.byteAt .pbuf pidx).toNat % 2)) % 2 = 0)

/-- 40_codec_toolkit.md R135, fourth item: bytes outside PBUF[1..last] and PBUF[pidx] never change a check. -/
def Obligations.ParityChecksReadOnlyCoveredBytes : Prop :=
  ∀ (s s' : State) (last pidx : Nat), s'.pbufLen = s.pbufLen → s'.byteAt .pbuf pidx = s.byteAt .pbuf pidx →
    (∀ k, 1 ≤ k → k ≤ last → s'.byteAt .pbuf k = s.byteAt .pbuf k) →
    ∀ i ∈ [Instr.pchkByte last pidx, .pchkBit last pidx],
      ∃ t t', exec i s = .next t ∧ exec i s' = .next t' ∧ t'.rc = t.rc ∧ t'.result = t.result

/-- 40_codec_toolkit.md R136, R138, R139; 20_memory.md R67: GET16 and GET32 read big-endian unsigned fields. -/
def Obligations.GetReadsABigEndianField : Prop :=
  ∀ (s : State) (off : Nat) (b : Nat → Nat), (∀ k, b k = (s.byteAt .pbuf (off + k)).toNat) →
    exec (.get16 off) s = .next
      (if off + 2 ≤ s.pbufLen then { s with rc := .ok, result := BitVec.ofNat 32 (b 0 * 256 + b 1) }
       else { s with rc := .arg, result := 0#32 }) ∧
    exec (.get32 off) s = .next
      (if off + 4 ≤ s.pbufLen then
        { s with rc := .ok, result := BitVec.ofNat 32 (((b 0 * 256 + b 1) * 256 + b 2) * 256 + b 3) }
       else { s with rc := .arg, result := 0#32 })

/-- 40_codec_toolkit.md R136, R140, R141; 20_memory.md R67: PUT16 and PUT32 write DATA as a big-endian field and no other
byte. -/
def Obligations.PutWritesABigEndianField : Prop :=
  ∀ (s : State) (off : Nat),
    (s.pbufLen < off + 2 → exec (.put16 off) s = .next { s with rc := .arg, result := 0#32 }) ∧
    (s.pbufLen < off + 4 → exec (.put32 off) s = .next { s with rc := .arg, result := 0#32 }) ∧
    (off + 2 ≤ s.pbufLen → ∃ t, exec (.put16 off) s = .next t ∧ t.rc = .ok ∧ t.result = 0#32 ∧
      (t.byteAt .pbuf off).toNat = s.data.toNat / 256 % 256 ∧ (t.byteAt .pbuf (off + 1)).toNat = s.data.toNat % 256 ∧
      (∀ a, (a < 0x1000 + off ∨ 0x1000 + off + 2 ≤ a) → t.mem.get a = s.mem.get a) ∧
      t = { s with mem := t.mem, rc := t.rc, result := t.result }) ∧
    (off + 4 ≤ s.pbufLen → ∃ t, exec (.put32 off) s = .next t ∧ t.rc = .ok ∧ t.result = 0#32 ∧
      (t.byteAt .pbuf off).toNat = s.data.toNat / 16777216 ∧
      (t.byteAt .pbuf (off + 1)).toNat = s.data.toNat / 65536 % 256 ∧
      (t.byteAt .pbuf (off + 2)).toNat = s.data.toNat / 256 % 256 ∧
      (t.byteAt .pbuf (off + 3)).toNat = s.data.toNat % 256 ∧
      (∀ a, (a < 0x1000 + off ∨ 0x1000 + off + 4 ≤ a) → t.mem.get a = s.mem.get a) ∧
      t = { s with mem := t.mem, rc := t.rc, result := t.result })

/-- 40_codec_toolkit.md R142: a field that was put is the field that is got. -/
def Obligations.GetAfterPutGivesTheData : Prop :=
  ∀ (s : State) (off : Nat),
    (off + 2 ≤ s.pbufLen → ∃ t u, exec (.put16 off) s = .next t ∧ exec (.get16 off) t = .next u ∧ u.rc = .ok ∧
      u.result = s.data &&& 0xFFFF#32) ∧
    (off + 4 ≤ s.pbufLen → ∃ t u, exec (.put32 off) s = .next t ∧ exec (.get32 off) t = .next u ∧ u.rc = .ok ∧
      u.result = s.data)

/-! ## The bus port -/

/-- 60_exceptions.md R265, 20_memory.md R66: an access that is not admitted gets the bus error and changes nothing else. -/
def Obligations.RejectedAccessesOnlyGetABusError : Prop :=
  ∀ (s : State) (off : Nat) (rest : List Access), s.cfg.wellFormed = true → off < 0x8000 →
    (∀ w, admitted s.cfg w off = false → s.pending = .read w (s.cfg.base + off) :: rest →
      step s = .next { s with pending := rest, response := .busError }) ∧
    (∀ v, admitted s.cfg .w8 off = false → s.pending = .write8 (s.cfg.base + off) v :: rest →
      step s = .next { s with pending := rest, response := .busError }) ∧
    (∀ v, s.pending = .write16 (s.cfg.base + off) v :: rest →
      step s = .next { s with pending := rest, response := .busError }) ∧
    (∀ v, admitted s.cfg .w32 off = false → s.pending = .write32 (s.cfg.base + off) v :: rest →
      step s = .next { s with pending := rest, response := .busError })

/-- 20_memory.md R77: no read has a side effect, so reading twice gives the same answer. -/
def Obligations.ReadsHaveNoSideEffect : Prop :=
  ∀ (s t : State) (w : Width) (addr : Nat) (rest : List Access), s.pending = .read w addr :: .read w addr :: rest →
    step s = .next t → t = { s with pending := .read w addr :: rest, response := t.response } ∧
      step t = .next { t with pending := rest }

/-- 10_state.md R23 to R42: what a 32-bit read of each register returns. -/
def Obligations.RegisterReadsFollowTheMap : Prop :=
  ∀ (s : State) (rest : List Access), s.Inv →
    ∀ p ∈ [(0x000, 0#32), (0x004, s.result), (0x008, s.statusWord), (0x00C, BitVec.ofNat 32 s.qCount),
      (0x010, BitVec.ofNat 32 s.accLen), (0x014, BitVec.ofNat 32 s.pbufLen), (0x018, BitVec.ofNat 32 s.rspLen),
      (0x01C, BitVec.ofNat 32 s.txLen), (0x020, s.data), (0x024, BitVec.ofNat 32 s.rxOff),
      (0x028, BitVec.ofNat 32 s.feedPos), (0x02C, BitVec.ofNat 32 s.feedEnd),
      (0x030, BitVec.ofNat 32 s.dspType.toNat), (0x034, BitVec.ofNat 32 s.dspLen), (0x038, BitVec.ofNat 32 s.dspOff),
      (0x060, BitVec.ofNat 32 (s.cfg.qDepth * 65536 + s.cfg.accCap)),
      (0x064, BitVec.ofNat 32 ((if s.cfg.policy = .wholeFrame then 65536 else 0) + s.cfg.qFrameMax)),
      (0x068, BitVec.ofNat 32 (s.cfg.pollByte.toNat * 65536 + s.cfg.busyByte.toNat * 256 + s.cfg.readyByte.toNat)),
      (0x06C, BitVec.ofNat 32 (s.cfg.rbufSize * 65536 + s.cfg.pbufSize)),
      (0x070, BitVec.ofNat 32 (s.cfg.rxSize * 65536 + s.cfg.txSize))],
      (s.pending = .read .w32 (s.cfg.base + p.1) :: rest →
        step s = .next { s with pending := rest, response := .word p.2 })

/-- 10_state.md R33: HENk shows the handler bits of types 32k to 32k+31, and a write sets those of the known types among
them. -/
def Obligations.HandlerTableReadsAndWrites : Prop :=
  ∀ (s : State) (k : Nat) (rest : List Access), s.cfg.wellFormed = true → k < 8 →
    (s.pending = .read .w32 (s.cfg.base + 0x040 + 4 * k) :: rest →
      ∃ v, step s = .next { s with pending := rest, response := .word v } ∧
        ∀ j, j < 32 → v.getLsbD j = s.hen.getLsbD (32 * k + j)) ∧
    (∀ w, s.pending = .write32 (s.cfg.base + 0x040 + 4 * k) w :: rest →
      ∃ t, step s = .next t ∧ t = { s with pending := rest, response := .done, hen := t.hen } ∧
        ∀ ty, ty < 256 → t.hen.getLsbD ty =
          if ty / 32 = k then w.getLsbD (ty % 32) && s.cfg.knownTypes.getLsbD ty else s.hen.getLsbD ty)

/-- 10_state.md R26, R27, R34, R37, R38, R43: what a 32-bit write to each other register does. -/
def Obligations.RegisterWritesFollowTheMap : Prop :=
  ∀ (s u : State) (w : Word) (rest : List Access), s.cfg.wellFormed = true →
    u = { s with pending := rest, response := .done } →
    (s.pending = .write32 (s.cfg.base + 0x008) w :: rest →
      step s = .next { u with seqErr := s.seqErr && !w.getLsbD 8, illCmd := s.illCmd && !w.getLsbD 9 }) ∧
    (s.pending = .write32 (s.cfg.base + 0x014) w :: rest →
      step s = .next { u with pbufLen := min (w.toNat % 65536) s.cfg.pbufSize }) ∧
    (s.pending = .write32 (s.cfg.base + 0x018) w :: rest →
      step s = .next { u with rspLen := min (w.toNat % 65536) s.cfg.rbufSize }) ∧
    (s.pending = .write32 (s.cfg.base + 0x020) w :: rest → step s = .next { u with data := w }) ∧
    (s.pending = .write32 (s.cfg.base + 0x024) w :: rest →
      step s = .next { u with rxOff := min (w.toNat % 65536) s.cfg.rxSize }) ∧
    (∀ off ∈ [0x004, 0x00C, 0x010, 0x01C, 0x028, 0x02C, 0x030, 0x034, 0x038, 0x060, 0x064, 0x068, 0x06C, 0x070],
      s.pending = .write32 (s.cfg.base + off) w :: rest → step s = .next u)

/-- 10_state.md R25: the fields of the STATUS word, every other bit 0. -/
def Obligations.StatusWordShowsItsFields : Prop :=
  ∀ s : State, s.statusWord.toNat =
    (match s.rc with | .ok => 0 | .arg => 1 | .frame => 2 | .alloc => 3 | .range => 4 | .parity => 5) +
    (if s.phase = .dispatch then 16 else 0) + (if s.seqErr then 256 else 0) + (if s.illCmd then 512 else 0)

/-- 20_memory.md R63, R64: byte reads of the five windows, and byte writes of PBUF, RBUF and RXBUF; a write to TXBUF, ACC or
DFRAME is ignored. -/
def Obligations.WindowAccessesReachTheirByte : Prop :=
  ∀ (s : State) (k : Nat) (rest : List Access), s.cfg.wellFormed = true →
    (∀ b : Buffer, k < b.size s.cfg → s.pending = .read .w8 (s.cfg.base + b.start + k) :: rest →
      step s = .next { s with pending := rest, response := .byte (s.mem.get (b.start + k)) }) ∧
    (∀ (b : Buffer) (v : Byte), b = .pbuf ∨ b = .rbuf ∨ b = .rxbuf → k < b.size s.cfg →
      s.pending = .write8 (s.cfg.base + b.start + k) v :: rest →
      ∃ t, step s = .next t ∧ t = { s with mem := t.mem, pending := rest, response := .done } ∧
        ∀ a, t.mem.get a = if a = b.start + k then v else s.mem.get a) ∧
    (∀ (b : Buffer) (v : Byte), b = .txbuf ∨ b = .acc → k < b.size s.cfg →
      s.pending = .write8 (s.cfg.base + b.start + k) v :: rest →
      step s = .next { s with pending := rest, response := .done }) ∧
    (∀ v : Byte, k < 0x1000 → s.pending = .write8 (s.cfg.base + 0x6000 + k) v :: rest →
      step s = .next { s with pending := rest, response := .done })

/-- 20_memory.md R65: the DFRAME view shows the dispatched frame, and 0x00 beyond it and outside a dispatch. -/
def Obligations.DframeShowsTheDispatchedFrame : Prop :=
  ∀ (s : State) (k : Nat) (rest : List Access) (v : Byte), s.cfg.wellFormed = true → k ≤ 0xFFF →
    s.pending = .read .w8 (s.cfg.base + 0x6000 + k) :: rest →
    v = (if s.phase = .dispatch ∧ k < s.dspLen then
          (if s.cfg.policy = .accumulate then s.byteAt .acc k else s.byteAt .rxbuf (s.dspOff + k))
         else 0x00#8) →
    step s = .next { s with pending := rest, response := .byte v }
end

