-- ==== Sys2Proof/Laws/Memory.lean ====
section
/-! SUPPORT. The laws of the byte memory: what a read gives after a write, and that every write keeps the canonical form. -/

namespace Sys2Proof.Machine

@[simp] theorem Memory.get_nil (x : Nat) : Memory.get [] x = Memory.fill := rfl

theorem Memory.get_cons (a : Nat) (b : Byte) (m : Memory) (x : Nat) :
    Memory.get ((a, b) :: m) x = if a = x then b else Memory.get m x := rfl

theorem Memory.get_insert (m : Memory) (x : Nat) (v : Byte) (y : Nat) :
    (Memory.insert m x v).get y = if x = y then v else m.get y := by
  induction m with
  | nil => simp [Memory.insert, Memory.get_cons]
  | cons c rest ih =>
    obtain ⟨a, b⟩ := c
    simp only [Memory.insert]
    split
    · simp [Memory.get_cons]
    · split
      · subst x; simp only [Memory.get_cons]; split <;> rfl
      · simp only [Memory.get_cons, ih]
        by_cases h1 : a = y <;> by_cases h2 : x = y <;> simp [h1, h2]
        omega

theorem Memory.get_erase (m : Memory) (x y : Nat) :
    (Memory.erase m x).get y = if x = y then Memory.fill else m.get y := by
  induction m with
  | nil => simp [Memory.erase]
  | cons c rest ih =>
    obtain ⟨a, b⟩ := c
    simp only [Memory.erase]
    by_cases h : a = x
    · subst h
      simp only [if_true, ih, Memory.get_cons]
      split <;> simp_all
    · simp only [if_neg h, Memory.get_cons, ih]
      by_cases h1 : a = y <;> by_cases h2 : x = y <;> simp [h1, h2]
      omega

/-- A write changes the byte it names and no other. -/
theorem Memory.get_put (m : Memory) (x : Nat) (v : Byte) (y : Nat) :
    (m.put x v).get y = if x = y then v else m.get y := by
  unfold Memory.put
  split
  · next h => rw [Memory.get_erase, h]
  · rw [Memory.get_insert]

@[simp] theorem Memory.get_put_same (m : Memory) (x : Nat) (v : Byte) : (m.put x v).get x = v := by
  simp [Memory.get_put]

theorem Memory.get_put_other (m : Memory) {x y : Nat} (v : Byte) (h : x ≠ y) : (m.put x v).get y = m.get y := by
  simp [Memory.get_put, h]

@[simp] theorem Memory.putBytes_nil (m : Memory) (x : Nat) : m.putBytes x [] = m := rfl

@[simp] theorem Memory.putBytes_cons (m : Memory) (x : Nat) (v : Byte) (vs : List Byte) :
    m.putBytes x (v :: vs) = (m.put x v).putBytes (x + 1) vs := rfl

/-- What a sequence of writes leaves: the written bytes inside, the old ones outside. -/
theorem Memory.get_putBytes (m : Memory) (x : Nat) (vs : List Byte) (y : Nat) :
    (m.putBytes x vs).get y = if x ≤ y ∧ y < x + vs.length then vs.getD (y - x) Memory.fill else m.get y := by
  induction vs generalizing m x with
  | nil => simp
  | cons v rest ih =>
    rw [Memory.putBytes_cons, ih, Memory.get_put]
    simp only [List.length_cons]
    by_cases h : x = y
    · subst h; simp
    · by_cases h2 : x + 1 ≤ y ∧ y < x + 1 + rest.length
      · have h3 : x ≤ y ∧ y < x + (rest.length + 1) := by omega
        have h4 : y - x = (y - (x + 1)) + 1 := by omega
        rw [if_pos h2, if_pos h3, h4, List.getD_cons_succ]
      · have h3 : ¬ (x ≤ y ∧ y < x + (rest.length + 1)) := by omega
        rw [if_neg h2, if_neg h3, if_neg h]

@[simp] theorem Memory.length_bytes (m : Memory) (x n : Nat) : (m.bytes x n).length = n := by
  simp [Memory.bytes]

theorem Memory.getD_bytes (m : Memory) (x n i : Nat) (h : i < n) (d : Byte) : (m.bytes x n).getD i d = m.get (x + i) := by
  simp [Memory.bytes, h]

theorem Memory.bytes_congr {m m' : Memory} {x x' n : Nat} (h : ∀ i, i < n → m.get (x + i) = m'.get (x' + i)) :
    m.bytes x n = m'.bytes x' n := by
  simp only [Memory.bytes]
  exact List.map_congr_left (fun i hi => h i (List.mem_range.mp hi))

/-- Reading back what was written. -/
theorem Memory.bytes_putBytes (m : Memory) (x : Nat) (vs : List Byte) : (m.putBytes x vs).bytes x vs.length = vs := by
  apply List.ext_getElem
  · simp
  · intro i h1 h2
    simp [Memory.bytes, Memory.get_putBytes, h2]

theorem Memory.bytes_succ (m : Memory) (x n : Nat) : m.bytes x (n + 1) = m.bytes x n ++ [m.get (x + n)] := by
  simp [Memory.bytes, List.range_succ]

/-! ## The canonical form -/

/-- The canonical form, read off a list: the first cell lists no fill byte, the next address is above it, the rest is
canonical. -/
theorem Memory.wf_cons (a : Nat) (b : Byte) (m : Memory) :
    Memory.wf ((a, b) :: m) = true ↔
      b ≠ Memory.fill ∧ (∀ c, m.head? = some c → a < c.1) ∧ m.wf = true := by
  cases m with
  | nil => simp [Memory.wf]
  | cons c rest => obtain ⟨a', b'⟩ := c; simp [Memory.wf, and_assoc]

theorem Memory.head_insert (m : Memory) (x : Nat) (v : Byte) (c : Host.Cell) (h : (Memory.insert m x v).head? = some c) :
    c.1 = x ∨ m.head? = some c := by
  cases m with
  | nil => simp [Memory.insert] at h; simp [← h]
  | cons d rest =>
    obtain ⟨a, b⟩ := d
    simp only [Memory.insert] at h
    split at h
    · simp at h; simp [← h]
    · split at h
      · simp at h; simp [← h]
      · right; simpa using h

theorem Memory.wf_insert (m : Memory) (x : Nat) (v : Byte) (hv : v ≠ Memory.fill) (h : m.wf = true) :
    (Memory.insert m x v).wf = true := by
  induction m with
  | nil => simp [Memory.insert, Memory.wf, hv]
  | cons d rest ih =>
    obtain ⟨a, b⟩ := d
    have hc := (Memory.wf_cons a b rest).mp h
    simp only [Memory.insert]
    split
    · next hlt => exact (Memory.wf_cons _ _ _).mpr ⟨hv, by simpa using hlt, h⟩
    · split
      · next heq => subst heq; exact (Memory.wf_cons _ _ _).mpr ⟨hv, hc.2.1, hc.2.2⟩
      · refine (Memory.wf_cons _ _ _).mpr ⟨hc.1, fun c hc' => ?_, ih hc.2.2⟩
        rcases Memory.head_insert rest x v c hc' with h' | h'
        · omega
        · exact hc.2.1 c h'

/-- In canonical form every later address is above the first. -/
theorem Memory.wf_lt {a : Nat} {b : Byte} {m : Memory} (h : Memory.wf ((a, b) :: m) = true) : ∀ c ∈ m, a < c.1 := by
  induction m generalizing a b with
  | nil => simp
  | cons d rest ih =>
    obtain ⟨a', b'⟩ := d
    have hc := (Memory.wf_cons a b _).mp h
    have h1 : a < a' := hc.2.1 (a', b') rfl
    intro c hm
    rcases List.mem_cons.mp hm with rfl | hm
    · exact h1
    · exact Nat.lt_trans h1 (ih hc.2.2 c hm)

theorem Memory.mem_erase (m : Memory) (x : Nat) (c : Host.Cell) : c ∈ Memory.erase m x ↔ c ∈ m ∧ c.1 ≠ x := by
  induction m with
  | nil => simp [Memory.erase]
  | cons d rest ih =>
    obtain ⟨a, b⟩ := d
    simp only [Memory.erase]
    split
    · next h =>
      subst h
      simp only [ih, List.mem_cons]
      constructor
      · exact fun ⟨h1, h2⟩ => ⟨.inr h1, h2⟩
      · rintro ⟨rfl | h1, h2⟩
        · exact absurd rfl h2
        · exact ⟨h1, h2⟩
    · next h =>
      simp only [List.mem_cons, ih]
      constructor
      · rintro (rfl | ⟨h1, h2⟩)
        · exact ⟨.inl rfl, h⟩
        · exact ⟨.inr h1, h2⟩
      · rintro ⟨rfl | h1, h2⟩
        · exact .inl rfl
        · exact .inr ⟨h1, h2⟩

theorem Memory.wf_erase (m : Memory) (x : Nat) (h : m.wf = true) : (Memory.erase m x).wf = true := by
  induction m with
  | nil => rfl
  | cons d rest ih =>
    obtain ⟨a, b⟩ := d
    have hc := (Memory.wf_cons a b rest).mp h
    simp only [Memory.erase]
    split
    · exact ih hc.2.2
    · refine (Memory.wf_cons _ _ _).mpr ⟨hc.1, fun c hc' => ?_, ih hc.2.2⟩
      exact Memory.wf_lt h c ((Memory.mem_erase rest x c).mp (List.mem_of_mem_head? hc')).1

/-- A write keeps the canonical form. -/
theorem Memory.wf_put (m : Memory) (x : Nat) (v : Byte) (h : m.wf = true) : (m.put x v).wf = true := by
  unfold Memory.put
  split
  · exact Memory.wf_erase m x h
  · next hv => exact Memory.wf_insert m x v hv h

/-- A sequence of writes keeps the canonical form. -/
theorem Memory.wf_putBytes (m : Memory) (x : Nat) (vs : List Byte) (h : m.wf = true) : (m.putBytes x vs).wf = true := by
  induction vs generalizing m x with
  | nil => exact h
  | cons v rest ih => exact ih _ _ (Memory.wf_put m x v h)

/-- A cell after a write was there before, or is the written byte. -/
theorem Memory.mem_put (m : Memory) (x : Nat) (v : Byte) (c : Host.Cell) (h : c ∈ m.put x v) : c ∈ m ∨ c.1 = x := by
  unfold Memory.put at h
  split at h
  · exact .inl ((Memory.mem_erase m x c).mp h).1
  · induction m with
    | nil => simp [Memory.insert] at h; simp [h]
    | cons d rest ih =>
      obtain ⟨a, b⟩ := d
      simp only [Memory.insert] at h
      split at h
      · rcases List.mem_cons.mp h with rfl | h
        · exact .inr rfl
        · exact .inl h
      · split at h
        · rcases List.mem_cons.mp h with rfl | h
          · exact .inr rfl
          · exact .inl (List.mem_cons_of_mem _ h)
        · rcases List.mem_cons.mp h with rfl | h
          · exact .inl (List.mem_cons_self ..)
          · rcases ih h with h | h
            · exact .inl (List.mem_cons_of_mem _ h)
            · exact .inr h

/-- A cell after a sequence of writes was there before, or lies in the written range. -/
theorem Memory.mem_putBytes (m : Memory) (x : Nat) (vs : List Byte) (c : Host.Cell) (h : c ∈ m.putBytes x vs) :
    c ∈ m ∨ (x ≤ c.1 ∧ c.1 < x + vs.length) := by
  induction vs generalizing m x with
  | nil => exact .inl h
  | cons v rest ih =>
    simp only [List.length_cons]
    rcases ih _ _ h with h | h
    · rcases Memory.mem_put m x v c h with h | h
      · exact .inl h
      · right; omega
    · right; omega

end Sys2Proof.Machine
end

