-- ==== Sys2Proof/Laws/State.lean ====
section
/-! SUPPORT. What each named update of State leaves in each field: one lemma per field per update, true by definition, so
that no proof unfolds a record update. -/

namespace Sys2Proof.Machine

variable (s : State)

/-! ## finish -/

@[simp] theorem State.finish_cfg (rc : ResultCode) (v : Word) : (s.finish rc v).cfg = s.cfg := rfl
@[simp] theorem State.finish_phase (rc : ResultCode) (v : Word) : (s.finish rc v).phase = s.phase := rfl
@[simp] theorem State.finish_mem (rc : ResultCode) (v : Word) : (s.finish rc v).mem = s.mem := rfl
@[simp] theorem State.finish_accLen (rc : ResultCode) (v : Word) : (s.finish rc v).accLen = s.accLen := rfl
@[simp] theorem State.finish_feedPos (rc : ResultCode) (v : Word) : (s.finish rc v).feedPos = s.feedPos := rfl
@[simp] theorem State.finish_feedEnd (rc : ResultCode) (v : Word) : (s.finish rc v).feedEnd = s.feedEnd := rfl
@[simp] theorem State.finish_dspType (rc : ResultCode) (v : Word) : (s.finish rc v).dspType = s.dspType := rfl
@[simp] theorem State.finish_dspLen (rc : ResultCode) (v : Word) : (s.finish rc v).dspLen = s.dspLen := rfl
@[simp] theorem State.finish_dspOff (rc : ResultCode) (v : Word) : (s.finish rc v).dspOff = s.dspOff := rfl
@[simp] theorem State.finish_hen (rc : ResultCode) (v : Word) : (s.finish rc v).hen = s.hen := rfl
@[simp] theorem State.finish_rxOff (rc : ResultCode) (v : Word) : (s.finish rc v).rxOff = s.rxOff := rfl
@[simp] theorem State.finish_slots (rc : ResultCode) (v : Word) : (s.finish rc v).slots = s.slots := rfl
@[simp] theorem State.finish_qHead (rc : ResultCode) (v : Word) : (s.finish rc v).qHead = s.qHead := rfl
@[simp] theorem State.finish_qCount (rc : ResultCode) (v : Word) : (s.finish rc v).qCount = s.qCount := rfl
@[simp] theorem State.finish_pbufLen (rc : ResultCode) (v : Word) : (s.finish rc v).pbufLen = s.pbufLen := rfl
@[simp] theorem State.finish_rspLen (rc : ResultCode) (v : Word) : (s.finish rc v).rspLen = s.rspLen := rfl
@[simp] theorem State.finish_txLen (rc : ResultCode) (v : Word) : (s.finish rc v).txLen = s.txLen := rfl
@[simp] theorem State.finish_result (rc : ResultCode) (v : Word) : (s.finish rc v).result = v := rfl
@[simp] theorem State.finish_rc (rc : ResultCode) (v : Word) : (s.finish rc v).rc = rc := rfl
@[simp] theorem State.finish_seqErr (rc : ResultCode) (v : Word) : (s.finish rc v).seqErr = s.seqErr := rfl
@[simp] theorem State.finish_illCmd (rc : ResultCode) (v : Word) : (s.finish rc v).illCmd = s.illCmd := rfl
@[simp] theorem State.finish_data (rc : ResultCode) (v : Word) : (s.finish rc v).data = s.data := rfl
@[simp] theorem State.finish_pending (rc : ResultCode) (v : Word) : (s.finish rc v).pending = s.pending := rfl
@[simp] theorem State.finish_response (rc : ResultCode) (v : Word) : (s.finish rc v).response = s.response := rfl

/-! ## finishOk -/

@[simp] theorem State.finishOk_cfg (v : Word) : (s.finishOk v).cfg = s.cfg := rfl
@[simp] theorem State.finishOk_phase (v : Word) : (s.finishOk v).phase = s.phase := rfl
@[simp] theorem State.finishOk_mem (v : Word) : (s.finishOk v).mem = s.mem := rfl
@[simp] theorem State.finishOk_accLen (v : Word) : (s.finishOk v).accLen = s.accLen := rfl
@[simp] theorem State.finishOk_feedPos (v : Word) : (s.finishOk v).feedPos = s.feedPos := rfl
@[simp] theorem State.finishOk_feedEnd (v : Word) : (s.finishOk v).feedEnd = s.feedEnd := rfl
@[simp] theorem State.finishOk_dspType (v : Word) : (s.finishOk v).dspType = s.dspType := rfl
@[simp] theorem State.finishOk_dspLen (v : Word) : (s.finishOk v).dspLen = s.dspLen := rfl
@[simp] theorem State.finishOk_dspOff (v : Word) : (s.finishOk v).dspOff = s.dspOff := rfl
@[simp] theorem State.finishOk_hen (v : Word) : (s.finishOk v).hen = s.hen := rfl
@[simp] theorem State.finishOk_rxOff (v : Word) : (s.finishOk v).rxOff = s.rxOff := rfl
@[simp] theorem State.finishOk_slots (v : Word) : (s.finishOk v).slots = s.slots := rfl
@[simp] theorem State.finishOk_qHead (v : Word) : (s.finishOk v).qHead = s.qHead := rfl
@[simp] theorem State.finishOk_qCount (v : Word) : (s.finishOk v).qCount = s.qCount := rfl
@[simp] theorem State.finishOk_pbufLen (v : Word) : (s.finishOk v).pbufLen = s.pbufLen := rfl
@[simp] theorem State.finishOk_rspLen (v : Word) : (s.finishOk v).rspLen = s.rspLen := rfl
@[simp] theorem State.finishOk_txLen (v : Word) : (s.finishOk v).txLen = s.txLen := rfl
@[simp] theorem State.finishOk_result (v : Word) : (s.finishOk v).result = v := rfl
@[simp] theorem State.finishOk_rc (v : Word) : (s.finishOk v).rc = .ok := rfl
@[simp] theorem State.finishOk_seqErr (v : Word) : (s.finishOk v).seqErr = s.seqErr := rfl
@[simp] theorem State.finishOk_illCmd (v : Word) : (s.finishOk v).illCmd = s.illCmd := rfl
@[simp] theorem State.finishOk_data (v : Word) : (s.finishOk v).data = s.data := rfl
@[simp] theorem State.finishOk_pending (v : Word) : (s.finishOk v).pending = s.pending := rfl
@[simp] theorem State.finishOk_response (v : Word) : (s.finishOk v).response = s.response := rfl

/-! ## fail -/

@[simp] theorem State.fail_cfg (rc : ResultCode) : (s.fail rc).cfg = s.cfg := rfl
@[simp] theorem State.fail_phase (rc : ResultCode) : (s.fail rc).phase = s.phase := rfl
@[simp] theorem State.fail_mem (rc : ResultCode) : (s.fail rc).mem = s.mem := rfl
@[simp] theorem State.fail_accLen (rc : ResultCode) : (s.fail rc).accLen = s.accLen := rfl
@[simp] theorem State.fail_feedPos (rc : ResultCode) : (s.fail rc).feedPos = s.feedPos := rfl
@[simp] theorem State.fail_feedEnd (rc : ResultCode) : (s.fail rc).feedEnd = s.feedEnd := rfl
@[simp] theorem State.fail_dspType (rc : ResultCode) : (s.fail rc).dspType = s.dspType := rfl
@[simp] theorem State.fail_dspLen (rc : ResultCode) : (s.fail rc).dspLen = s.dspLen := rfl
@[simp] theorem State.fail_dspOff (rc : ResultCode) : (s.fail rc).dspOff = s.dspOff := rfl
@[simp] theorem State.fail_hen (rc : ResultCode) : (s.fail rc).hen = s.hen := rfl
@[simp] theorem State.fail_rxOff (rc : ResultCode) : (s.fail rc).rxOff = s.rxOff := rfl
@[simp] theorem State.fail_slots (rc : ResultCode) : (s.fail rc).slots = s.slots := rfl
@[simp] theorem State.fail_qHead (rc : ResultCode) : (s.fail rc).qHead = s.qHead := rfl
@[simp] theorem State.fail_qCount (rc : ResultCode) : (s.fail rc).qCount = s.qCount := rfl
@[simp] theorem State.fail_pbufLen (rc : ResultCode) : (s.fail rc).pbufLen = s.pbufLen := rfl
@[simp] theorem State.fail_rspLen (rc : ResultCode) : (s.fail rc).rspLen = s.rspLen := rfl
@[simp] theorem State.fail_txLen (rc : ResultCode) : (s.fail rc).txLen = s.txLen := rfl
@[simp] theorem State.fail_result (rc : ResultCode) : (s.fail rc).result = 0#32 := rfl
@[simp] theorem State.fail_rc (rc : ResultCode) : (s.fail rc).rc = rc := rfl
@[simp] theorem State.fail_seqErr (rc : ResultCode) : (s.fail rc).seqErr = s.seqErr := rfl
@[simp] theorem State.fail_illCmd (rc : ResultCode) : (s.fail rc).illCmd = s.illCmd := rfl
@[simp] theorem State.fail_data (rc : ResultCode) : (s.fail rc).data = s.data := rfl
@[simp] theorem State.fail_pending (rc : ResultCode) : (s.fail rc).pending = s.pending := rfl
@[simp] theorem State.fail_response (rc : ResultCode) : (s.fail rc).response = s.response := rfl

/-! ## rejectSeq -/

@[simp] theorem State.rejectSeq_cfg : (s.rejectSeq).cfg = s.cfg := rfl
@[simp] theorem State.rejectSeq_phase : (s.rejectSeq).phase = s.phase := rfl
@[simp] theorem State.rejectSeq_mem : (s.rejectSeq).mem = s.mem := rfl
@[simp] theorem State.rejectSeq_accLen : (s.rejectSeq).accLen = s.accLen := rfl
@[simp] theorem State.rejectSeq_feedPos : (s.rejectSeq).feedPos = s.feedPos := rfl
@[simp] theorem State.rejectSeq_feedEnd : (s.rejectSeq).feedEnd = s.feedEnd := rfl
@[simp] theorem State.rejectSeq_dspType : (s.rejectSeq).dspType = s.dspType := rfl
@[simp] theorem State.rejectSeq_dspLen : (s.rejectSeq).dspLen = s.dspLen := rfl
@[simp] theorem State.rejectSeq_dspOff : (s.rejectSeq).dspOff = s.dspOff := rfl
@[simp] theorem State.rejectSeq_hen : (s.rejectSeq).hen = s.hen := rfl
@[simp] theorem State.rejectSeq_rxOff : (s.rejectSeq).rxOff = s.rxOff := rfl
@[simp] theorem State.rejectSeq_slots : (s.rejectSeq).slots = s.slots := rfl
@[simp] theorem State.rejectSeq_qHead : (s.rejectSeq).qHead = s.qHead := rfl
@[simp] theorem State.rejectSeq_qCount : (s.rejectSeq).qCount = s.qCount := rfl
@[simp] theorem State.rejectSeq_pbufLen : (s.rejectSeq).pbufLen = s.pbufLen := rfl
@[simp] theorem State.rejectSeq_rspLen : (s.rejectSeq).rspLen = s.rspLen := rfl
@[simp] theorem State.rejectSeq_txLen : (s.rejectSeq).txLen = s.txLen := rfl
@[simp] theorem State.rejectSeq_result : (s.rejectSeq).result = s.result := rfl
@[simp] theorem State.rejectSeq_rc : (s.rejectSeq).rc = s.rc := rfl
@[simp] theorem State.rejectSeq_seqErr : (s.rejectSeq).seqErr = true := rfl
@[simp] theorem State.rejectSeq_illCmd : (s.rejectSeq).illCmd = s.illCmd := rfl
@[simp] theorem State.rejectSeq_data : (s.rejectSeq).data = s.data := rfl
@[simp] theorem State.rejectSeq_pending : (s.rejectSeq).pending = s.pending := rfl
@[simp] theorem State.rejectSeq_response : (s.rejectSeq).response = s.response := rfl

/-! ## rejectIll -/

@[simp] theorem State.rejectIll_cfg : (s.rejectIll).cfg = s.cfg := rfl
@[simp] theorem State.rejectIll_phase : (s.rejectIll).phase = s.phase := rfl
@[simp] theorem State.rejectIll_mem : (s.rejectIll).mem = s.mem := rfl
@[simp] theorem State.rejectIll_accLen : (s.rejectIll).accLen = s.accLen := rfl
@[simp] theorem State.rejectIll_feedPos : (s.rejectIll).feedPos = s.feedPos := rfl
@[simp] theorem State.rejectIll_feedEnd : (s.rejectIll).feedEnd = s.feedEnd := rfl
@[simp] theorem State.rejectIll_dspType : (s.rejectIll).dspType = s.dspType := rfl
@[simp] theorem State.rejectIll_dspLen : (s.rejectIll).dspLen = s.dspLen := rfl
@[simp] theorem State.rejectIll_dspOff : (s.rejectIll).dspOff = s.dspOff := rfl
@[simp] theorem State.rejectIll_hen : (s.rejectIll).hen = s.hen := rfl
@[simp] theorem State.rejectIll_rxOff : (s.rejectIll).rxOff = s.rxOff := rfl
@[simp] theorem State.rejectIll_slots : (s.rejectIll).slots = s.slots := rfl
@[simp] theorem State.rejectIll_qHead : (s.rejectIll).qHead = s.qHead := rfl
@[simp] theorem State.rejectIll_qCount : (s.rejectIll).qCount = s.qCount := rfl
@[simp] theorem State.rejectIll_pbufLen : (s.rejectIll).pbufLen = s.pbufLen := rfl
@[simp] theorem State.rejectIll_rspLen : (s.rejectIll).rspLen = s.rspLen := rfl
@[simp] theorem State.rejectIll_txLen : (s.rejectIll).txLen = s.txLen := rfl
@[simp] theorem State.rejectIll_result : (s.rejectIll).result = s.result := rfl
@[simp] theorem State.rejectIll_rc : (s.rejectIll).rc = s.rc := rfl
@[simp] theorem State.rejectIll_seqErr : (s.rejectIll).seqErr = s.seqErr := rfl
@[simp] theorem State.rejectIll_illCmd : (s.rejectIll).illCmd = true := rfl
@[simp] theorem State.rejectIll_data : (s.rejectIll).data = s.data := rfl
@[simp] theorem State.rejectIll_pending : (s.rejectIll).pending = s.pending := rfl
@[simp] theorem State.rejectIll_response : (s.rejectIll).response = s.response := rfl

/-! ## writeStatus -/

@[simp] theorem State.writeStatus_cfg (w : Word) : (s.writeStatus w).cfg = s.cfg := rfl
@[simp] theorem State.writeStatus_phase (w : Word) : (s.writeStatus w).phase = s.phase := rfl
@[simp] theorem State.writeStatus_mem (w : Word) : (s.writeStatus w).mem = s.mem := rfl
@[simp] theorem State.writeStatus_accLen (w : Word) : (s.writeStatus w).accLen = s.accLen := rfl
@[simp] theorem State.writeStatus_feedPos (w : Word) : (s.writeStatus w).feedPos = s.feedPos := rfl
@[simp] theorem State.writeStatus_feedEnd (w : Word) : (s.writeStatus w).feedEnd = s.feedEnd := rfl
@[simp] theorem State.writeStatus_dspType (w : Word) : (s.writeStatus w).dspType = s.dspType := rfl
@[simp] theorem State.writeStatus_dspLen (w : Word) : (s.writeStatus w).dspLen = s.dspLen := rfl
@[simp] theorem State.writeStatus_dspOff (w : Word) : (s.writeStatus w).dspOff = s.dspOff := rfl
@[simp] theorem State.writeStatus_hen (w : Word) : (s.writeStatus w).hen = s.hen := rfl
@[simp] theorem State.writeStatus_rxOff (w : Word) : (s.writeStatus w).rxOff = s.rxOff := rfl
@[simp] theorem State.writeStatus_slots (w : Word) : (s.writeStatus w).slots = s.slots := rfl
@[simp] theorem State.writeStatus_qHead (w : Word) : (s.writeStatus w).qHead = s.qHead := rfl
@[simp] theorem State.writeStatus_qCount (w : Word) : (s.writeStatus w).qCount = s.qCount := rfl
@[simp] theorem State.writeStatus_pbufLen (w : Word) : (s.writeStatus w).pbufLen = s.pbufLen := rfl
@[simp] theorem State.writeStatus_rspLen (w : Word) : (s.writeStatus w).rspLen = s.rspLen := rfl
@[simp] theorem State.writeStatus_txLen (w : Word) : (s.writeStatus w).txLen = s.txLen := rfl
@[simp] theorem State.writeStatus_result (w : Word) : (s.writeStatus w).result = s.result := rfl
@[simp] theorem State.writeStatus_rc (w : Word) : (s.writeStatus w).rc = s.rc := rfl
@[simp] theorem State.writeStatus_seqErr (w : Word) : (s.writeStatus w).seqErr = (s.seqErr && !w.getLsbD 8) := rfl
@[simp] theorem State.writeStatus_illCmd (w : Word) : (s.writeStatus w).illCmd = (s.illCmd && !w.getLsbD 9) := rfl
@[simp] theorem State.writeStatus_data (w : Word) : (s.writeStatus w).data = s.data := rfl
@[simp] theorem State.writeStatus_pending (w : Word) : (s.writeStatus w).pending = s.pending := rfl
@[simp] theorem State.writeStatus_response (w : Word) : (s.writeStatus w).response = s.response := rfl

/-! ## writeHen -/

@[simp] theorem State.writeHen_cfg (k : Nat) (w : Word) : (s.writeHen k w).cfg = s.cfg := rfl
@[simp] theorem State.writeHen_phase (k : Nat) (w : Word) : (s.writeHen k w).phase = s.phase := rfl
@[simp] theorem State.writeHen_mem (k : Nat) (w : Word) : (s.writeHen k w).mem = s.mem := rfl
@[simp] theorem State.writeHen_accLen (k : Nat) (w : Word) : (s.writeHen k w).accLen = s.accLen := rfl
@[simp] theorem State.writeHen_feedPos (k : Nat) (w : Word) : (s.writeHen k w).feedPos = s.feedPos := rfl
@[simp] theorem State.writeHen_feedEnd (k : Nat) (w : Word) : (s.writeHen k w).feedEnd = s.feedEnd := rfl
@[simp] theorem State.writeHen_dspType (k : Nat) (w : Word) : (s.writeHen k w).dspType = s.dspType := rfl
@[simp] theorem State.writeHen_dspLen (k : Nat) (w : Word) : (s.writeHen k w).dspLen = s.dspLen := rfl
@[simp] theorem State.writeHen_dspOff (k : Nat) (w : Word) : (s.writeHen k w).dspOff = s.dspOff := rfl
@[simp] theorem State.writeHen_hen (k : Nat) (w : Word) : (s.writeHen k w).hen = ((s.hen &&& ~~~(henMask k)) ||| ((w.setWidth 256 <<< (32 * k)) &&& s.cfg.knownTypes)) := rfl
@[simp] theorem State.writeHen_rxOff (k : Nat) (w : Word) : (s.writeHen k w).rxOff = s.rxOff := rfl
@[simp] theorem State.writeHen_slots (k : Nat) (w : Word) : (s.writeHen k w).slots = s.slots := rfl
@[simp] theorem State.writeHen_qHead (k : Nat) (w : Word) : (s.writeHen k w).qHead = s.qHead := rfl
@[simp] theorem State.writeHen_qCount (k : Nat) (w : Word) : (s.writeHen k w).qCount = s.qCount := rfl
@[simp] theorem State.writeHen_pbufLen (k : Nat) (w : Word) : (s.writeHen k w).pbufLen = s.pbufLen := rfl
@[simp] theorem State.writeHen_rspLen (k : Nat) (w : Word) : (s.writeHen k w).rspLen = s.rspLen := rfl
@[simp] theorem State.writeHen_txLen (k : Nat) (w : Word) : (s.writeHen k w).txLen = s.txLen := rfl
@[simp] theorem State.writeHen_result (k : Nat) (w : Word) : (s.writeHen k w).result = s.result := rfl
@[simp] theorem State.writeHen_rc (k : Nat) (w : Word) : (s.writeHen k w).rc = s.rc := rfl
@[simp] theorem State.writeHen_seqErr (k : Nat) (w : Word) : (s.writeHen k w).seqErr = s.seqErr := rfl
@[simp] theorem State.writeHen_illCmd (k : Nat) (w : Word) : (s.writeHen k w).illCmd = s.illCmd := rfl
@[simp] theorem State.writeHen_data (k : Nat) (w : Word) : (s.writeHen k w).data = s.data := rfl
@[simp] theorem State.writeHen_pending (k : Nat) (w : Word) : (s.writeHen k w).pending = s.pending := rfl
@[simp] theorem State.writeHen_response (k : Nat) (w : Word) : (s.writeHen k w).response = s.response := rfl

/-! ## putByte -/

@[simp] theorem State.putByte_cfg (b : Buffer) (i : Nat) (v : Byte) : (s.putByte b i v).cfg = s.cfg := rfl
@[simp] theorem State.putByte_phase (b : Buffer) (i : Nat) (v : Byte) : (s.putByte b i v).phase = s.phase := rfl
@[simp] theorem State.putByte_mem (b : Buffer) (i : Nat) (v : Byte) : (s.putByte b i v).mem = s.mem.put (b.start + i) v := rfl
@[simp] theorem State.putByte_accLen (b : Buffer) (i : Nat) (v : Byte) : (s.putByte b i v).accLen = s.accLen := rfl
@[simp] theorem State.putByte_feedPos (b : Buffer) (i : Nat) (v : Byte) : (s.putByte b i v).feedPos = s.feedPos := rfl
@[simp] theorem State.putByte_feedEnd (b : Buffer) (i : Nat) (v : Byte) : (s.putByte b i v).feedEnd = s.feedEnd := rfl
@[simp] theorem State.putByte_dspType (b : Buffer) (i : Nat) (v : Byte) : (s.putByte b i v).dspType = s.dspType := rfl
@[simp] theorem State.putByte_dspLen (b : Buffer) (i : Nat) (v : Byte) : (s.putByte b i v).dspLen = s.dspLen := rfl
@[simp] theorem State.putByte_dspOff (b : Buffer) (i : Nat) (v : Byte) : (s.putByte b i v).dspOff = s.dspOff := rfl
@[simp] theorem State.putByte_hen (b : Buffer) (i : Nat) (v : Byte) : (s.putByte b i v).hen = s.hen := rfl
@[simp] theorem State.putByte_rxOff (b : Buffer) (i : Nat) (v : Byte) : (s.putByte b i v).rxOff = s.rxOff := rfl
@[simp] theorem State.putByte_slots (b : Buffer) (i : Nat) (v : Byte) : (s.putByte b i v).slots = s.slots := rfl
@[simp] theorem State.putByte_qHead (b : Buffer) (i : Nat) (v : Byte) : (s.putByte b i v).qHead = s.qHead := rfl
@[simp] theorem State.putByte_qCount (b : Buffer) (i : Nat) (v : Byte) : (s.putByte b i v).qCount = s.qCount := rfl
@[simp] theorem State.putByte_pbufLen (b : Buffer) (i : Nat) (v : Byte) : (s.putByte b i v).pbufLen = s.pbufLen := rfl
@[simp] theorem State.putByte_rspLen (b : Buffer) (i : Nat) (v : Byte) : (s.putByte b i v).rspLen = s.rspLen := rfl
@[simp] theorem State.putByte_txLen (b : Buffer) (i : Nat) (v : Byte) : (s.putByte b i v).txLen = s.txLen := rfl
@[simp] theorem State.putByte_result (b : Buffer) (i : Nat) (v : Byte) : (s.putByte b i v).result = s.result := rfl
@[simp] theorem State.putByte_rc (b : Buffer) (i : Nat) (v : Byte) : (s.putByte b i v).rc = s.rc := rfl
@[simp] theorem State.putByte_seqErr (b : Buffer) (i : Nat) (v : Byte) : (s.putByte b i v).seqErr = s.seqErr := rfl
@[simp] theorem State.putByte_illCmd (b : Buffer) (i : Nat) (v : Byte) : (s.putByte b i v).illCmd = s.illCmd := rfl
@[simp] theorem State.putByte_data (b : Buffer) (i : Nat) (v : Byte) : (s.putByte b i v).data = s.data := rfl
@[simp] theorem State.putByte_pending (b : Buffer) (i : Nat) (v : Byte) : (s.putByte b i v).pending = s.pending := rfl
@[simp] theorem State.putByte_response (b : Buffer) (i : Nat) (v : Byte) : (s.putByte b i v).response = s.response := rfl

/-! ## putBytes -/

@[simp] theorem State.putBytes_cfg (b : Buffer) (i : Nat) (vs : List Byte) : (s.putBytes b i vs).cfg = s.cfg := rfl
@[simp] theorem State.putBytes_phase (b : Buffer) (i : Nat) (vs : List Byte) : (s.putBytes b i vs).phase = s.phase := rfl
@[simp] theorem State.putBytes_mem (b : Buffer) (i : Nat) (vs : List Byte) : (s.putBytes b i vs).mem = s.mem.putBytes (b.start + i) vs := rfl
@[simp] theorem State.putBytes_accLen (b : Buffer) (i : Nat) (vs : List Byte) : (s.putBytes b i vs).accLen = s.accLen := rfl
@[simp] theorem State.putBytes_feedPos (b : Buffer) (i : Nat) (vs : List Byte) : (s.putBytes b i vs).feedPos = s.feedPos := rfl
@[simp] theorem State.putBytes_feedEnd (b : Buffer) (i : Nat) (vs : List Byte) : (s.putBytes b i vs).feedEnd = s.feedEnd := rfl
@[simp] theorem State.putBytes_dspType (b : Buffer) (i : Nat) (vs : List Byte) : (s.putBytes b i vs).dspType = s.dspType := rfl
@[simp] theorem State.putBytes_dspLen (b : Buffer) (i : Nat) (vs : List Byte) : (s.putBytes b i vs).dspLen = s.dspLen := rfl
@[simp] theorem State.putBytes_dspOff (b : Buffer) (i : Nat) (vs : List Byte) : (s.putBytes b i vs).dspOff = s.dspOff := rfl
@[simp] theorem State.putBytes_hen (b : Buffer) (i : Nat) (vs : List Byte) : (s.putBytes b i vs).hen = s.hen := rfl
@[simp] theorem State.putBytes_rxOff (b : Buffer) (i : Nat) (vs : List Byte) : (s.putBytes b i vs).rxOff = s.rxOff := rfl
@[simp] theorem State.putBytes_slots (b : Buffer) (i : Nat) (vs : List Byte) : (s.putBytes b i vs).slots = s.slots := rfl
@[simp] theorem State.putBytes_qHead (b : Buffer) (i : Nat) (vs : List Byte) : (s.putBytes b i vs).qHead = s.qHead := rfl
@[simp] theorem State.putBytes_qCount (b : Buffer) (i : Nat) (vs : List Byte) : (s.putBytes b i vs).qCount = s.qCount := rfl
@[simp] theorem State.putBytes_pbufLen (b : Buffer) (i : Nat) (vs : List Byte) : (s.putBytes b i vs).pbufLen = s.pbufLen := rfl
@[simp] theorem State.putBytes_rspLen (b : Buffer) (i : Nat) (vs : List Byte) : (s.putBytes b i vs).rspLen = s.rspLen := rfl
@[simp] theorem State.putBytes_txLen (b : Buffer) (i : Nat) (vs : List Byte) : (s.putBytes b i vs).txLen = s.txLen := rfl
@[simp] theorem State.putBytes_result (b : Buffer) (i : Nat) (vs : List Byte) : (s.putBytes b i vs).result = s.result := rfl
@[simp] theorem State.putBytes_rc (b : Buffer) (i : Nat) (vs : List Byte) : (s.putBytes b i vs).rc = s.rc := rfl
@[simp] theorem State.putBytes_seqErr (b : Buffer) (i : Nat) (vs : List Byte) : (s.putBytes b i vs).seqErr = s.seqErr := rfl
@[simp] theorem State.putBytes_illCmd (b : Buffer) (i : Nat) (vs : List Byte) : (s.putBytes b i vs).illCmd = s.illCmd := rfl
@[simp] theorem State.putBytes_data (b : Buffer) (i : Nat) (vs : List Byte) : (s.putBytes b i vs).data = s.data := rfl
@[simp] theorem State.putBytes_pending (b : Buffer) (i : Nat) (vs : List Byte) : (s.putBytes b i vs).pending = s.pending := rfl
@[simp] theorem State.putBytes_response (b : Buffer) (i : Nat) (vs : List Byte) : (s.putBytes b i vs).response = s.response := rfl

/-! ## appendAcc -/

@[simp] theorem State.appendAcc_cfg (b : Byte) : (s.appendAcc b).cfg = s.cfg := rfl
@[simp] theorem State.appendAcc_phase (b : Byte) : (s.appendAcc b).phase = s.phase := rfl
@[simp] theorem State.appendAcc_mem (b : Byte) : (s.appendAcc b).mem = s.mem.put (Buffer.start .acc + s.accLen) b := rfl
@[simp] theorem State.appendAcc_accLen (b : Byte) : (s.appendAcc b).accLen = s.accLen + 1 := rfl
@[simp] theorem State.appendAcc_feedPos (b : Byte) : (s.appendAcc b).feedPos = s.feedPos := rfl
@[simp] theorem State.appendAcc_feedEnd (b : Byte) : (s.appendAcc b).feedEnd = s.feedEnd := rfl
@[simp] theorem State.appendAcc_dspType (b : Byte) : (s.appendAcc b).dspType = s.dspType := rfl
@[simp] theorem State.appendAcc_dspLen (b : Byte) : (s.appendAcc b).dspLen = s.dspLen := rfl
@[simp] theorem State.appendAcc_dspOff (b : Byte) : (s.appendAcc b).dspOff = s.dspOff := rfl
@[simp] theorem State.appendAcc_hen (b : Byte) : (s.appendAcc b).hen = s.hen := rfl
@[simp] theorem State.appendAcc_rxOff (b : Byte) : (s.appendAcc b).rxOff = s.rxOff := rfl
@[simp] theorem State.appendAcc_slots (b : Byte) : (s.appendAcc b).slots = s.slots := rfl
@[simp] theorem State.appendAcc_qHead (b : Byte) : (s.appendAcc b).qHead = s.qHead := rfl
@[simp] theorem State.appendAcc_qCount (b : Byte) : (s.appendAcc b).qCount = s.qCount := rfl
@[simp] theorem State.appendAcc_pbufLen (b : Byte) : (s.appendAcc b).pbufLen = s.pbufLen := rfl
@[simp] theorem State.appendAcc_rspLen (b : Byte) : (s.appendAcc b).rspLen = s.rspLen := rfl
@[simp] theorem State.appendAcc_txLen (b : Byte) : (s.appendAcc b).txLen = s.txLen := rfl
@[simp] theorem State.appendAcc_result (b : Byte) : (s.appendAcc b).result = s.result := rfl
@[simp] theorem State.appendAcc_rc (b : Byte) : (s.appendAcc b).rc = s.rc := rfl
@[simp] theorem State.appendAcc_seqErr (b : Byte) : (s.appendAcc b).seqErr = s.seqErr := rfl
@[simp] theorem State.appendAcc_illCmd (b : Byte) : (s.appendAcc b).illCmd = s.illCmd := rfl
@[simp] theorem State.appendAcc_data (b : Byte) : (s.appendAcc b).data = s.data := rfl
@[simp] theorem State.appendAcc_pending (b : Byte) : (s.appendAcc b).pending = s.pending := rfl
@[simp] theorem State.appendAcc_response (b : Byte) : (s.appendAcc b).response = s.response := rfl

/-! ## enqueue -/

@[simp] theorem State.enqueue_cfg (f : List Byte) : (s.enqueue f).cfg = s.cfg := rfl
@[simp] theorem State.enqueue_phase (f : List Byte) : (s.enqueue f).phase = s.phase := rfl
@[simp] theorem State.enqueue_mem (f : List Byte) : (s.enqueue f).mem = s.mem := rfl
@[simp] theorem State.enqueue_accLen (f : List Byte) : (s.enqueue f).accLen = s.accLen := rfl
@[simp] theorem State.enqueue_feedPos (f : List Byte) : (s.enqueue f).feedPos = s.feedPos := rfl
@[simp] theorem State.enqueue_feedEnd (f : List Byte) : (s.enqueue f).feedEnd = s.feedEnd := rfl
@[simp] theorem State.enqueue_dspType (f : List Byte) : (s.enqueue f).dspType = s.dspType := rfl
@[simp] theorem State.enqueue_dspLen (f : List Byte) : (s.enqueue f).dspLen = s.dspLen := rfl
@[simp] theorem State.enqueue_dspOff (f : List Byte) : (s.enqueue f).dspOff = s.dspOff := rfl
@[simp] theorem State.enqueue_hen (f : List Byte) : (s.enqueue f).hen = s.hen := rfl
@[simp] theorem State.enqueue_rxOff (f : List Byte) : (s.enqueue f).rxOff = s.rxOff := rfl
@[simp] theorem State.enqueue_slots (f : List Byte) : (s.enqueue f).slots = s.slots.set ((s.qHead + s.qCount) % s.cfg.qDepth) ((s.slot ((s.qHead + s.qCount) % s.cfg.qDepth)).store f) := rfl
@[simp] theorem State.enqueue_qHead (f : List Byte) : (s.enqueue f).qHead = s.qHead := rfl
@[simp] theorem State.enqueue_qCount (f : List Byte) : (s.enqueue f).qCount = s.qCount + 1 := rfl
@[simp] theorem State.enqueue_pbufLen (f : List Byte) : (s.enqueue f).pbufLen = s.pbufLen := rfl
@[simp] theorem State.enqueue_rspLen (f : List Byte) : (s.enqueue f).rspLen = s.rspLen := rfl
@[simp] theorem State.enqueue_txLen (f : List Byte) : (s.enqueue f).txLen = s.txLen := rfl
@[simp] theorem State.enqueue_result (f : List Byte) : (s.enqueue f).result = s.result := rfl
@[simp] theorem State.enqueue_rc (f : List Byte) : (s.enqueue f).rc = s.rc := rfl
@[simp] theorem State.enqueue_seqErr (f : List Byte) : (s.enqueue f).seqErr = s.seqErr := rfl
@[simp] theorem State.enqueue_illCmd (f : List Byte) : (s.enqueue f).illCmd = s.illCmd := rfl
@[simp] theorem State.enqueue_data (f : List Byte) : (s.enqueue f).data = s.data := rfl
@[simp] theorem State.enqueue_pending (f : List Byte) : (s.enqueue f).pending = s.pending := rfl
@[simp] theorem State.enqueue_response (f : List Byte) : (s.enqueue f).response = s.response := rfl

/-! ## dequeue -/

@[simp] theorem State.dequeue_cfg : (s.dequeue).cfg = s.cfg := rfl
@[simp] theorem State.dequeue_phase : (s.dequeue).phase = s.phase := rfl
@[simp] theorem State.dequeue_mem : (s.dequeue).mem = s.mem := rfl
@[simp] theorem State.dequeue_accLen : (s.dequeue).accLen = s.accLen := rfl
@[simp] theorem State.dequeue_feedPos : (s.dequeue).feedPos = s.feedPos := rfl
@[simp] theorem State.dequeue_feedEnd : (s.dequeue).feedEnd = s.feedEnd := rfl
@[simp] theorem State.dequeue_dspType : (s.dequeue).dspType = s.dspType := rfl
@[simp] theorem State.dequeue_dspLen : (s.dequeue).dspLen = s.dspLen := rfl
@[simp] theorem State.dequeue_dspOff : (s.dequeue).dspOff = s.dspOff := rfl
@[simp] theorem State.dequeue_hen : (s.dequeue).hen = s.hen := rfl
@[simp] theorem State.dequeue_rxOff : (s.dequeue).rxOff = s.rxOff := rfl
@[simp] theorem State.dequeue_slots : (s.dequeue).slots = s.slots := rfl
@[simp] theorem State.dequeue_qHead : (s.dequeue).qHead = (s.qHead + 1) % s.cfg.qDepth := rfl
@[simp] theorem State.dequeue_qCount : (s.dequeue).qCount = s.qCount - 1 := rfl
@[simp] theorem State.dequeue_pbufLen : (s.dequeue).pbufLen = s.pbufLen := rfl
@[simp] theorem State.dequeue_rspLen : (s.dequeue).rspLen = s.rspLen := rfl
@[simp] theorem State.dequeue_txLen : (s.dequeue).txLen = s.txLen := rfl
@[simp] theorem State.dequeue_result : (s.dequeue).result = s.result := rfl
@[simp] theorem State.dequeue_rc : (s.dequeue).rc = s.rc := rfl
@[simp] theorem State.dequeue_seqErr : (s.dequeue).seqErr = s.seqErr := rfl
@[simp] theorem State.dequeue_illCmd : (s.dequeue).illCmd = s.illCmd := rfl
@[simp] theorem State.dequeue_data : (s.dequeue).data = s.data := rfl
@[simp] theorem State.dequeue_pending : (s.dequeue).pending = s.pending := rfl
@[simp] theorem State.dequeue_response : (s.dequeue).response = s.response := rfl

/-! ## answer -/

@[simp] theorem State.answer_cfg (r : Response) : (s.answer r).cfg = s.cfg := rfl
@[simp] theorem State.answer_phase (r : Response) : (s.answer r).phase = s.phase := rfl
@[simp] theorem State.answer_mem (r : Response) : (s.answer r).mem = s.mem := rfl
@[simp] theorem State.answer_accLen (r : Response) : (s.answer r).accLen = s.accLen := rfl
@[simp] theorem State.answer_feedPos (r : Response) : (s.answer r).feedPos = s.feedPos := rfl
@[simp] theorem State.answer_feedEnd (r : Response) : (s.answer r).feedEnd = s.feedEnd := rfl
@[simp] theorem State.answer_dspType (r : Response) : (s.answer r).dspType = s.dspType := rfl
@[simp] theorem State.answer_dspLen (r : Response) : (s.answer r).dspLen = s.dspLen := rfl
@[simp] theorem State.answer_dspOff (r : Response) : (s.answer r).dspOff = s.dspOff := rfl
@[simp] theorem State.answer_hen (r : Response) : (s.answer r).hen = s.hen := rfl
@[simp] theorem State.answer_rxOff (r : Response) : (s.answer r).rxOff = s.rxOff := rfl
@[simp] theorem State.answer_slots (r : Response) : (s.answer r).slots = s.slots := rfl
@[simp] theorem State.answer_qHead (r : Response) : (s.answer r).qHead = s.qHead := rfl
@[simp] theorem State.answer_qCount (r : Response) : (s.answer r).qCount = s.qCount := rfl
@[simp] theorem State.answer_pbufLen (r : Response) : (s.answer r).pbufLen = s.pbufLen := rfl
@[simp] theorem State.answer_rspLen (r : Response) : (s.answer r).rspLen = s.rspLen := rfl
@[simp] theorem State.answer_txLen (r : Response) : (s.answer r).txLen = s.txLen := rfl
@[simp] theorem State.answer_result (r : Response) : (s.answer r).result = s.result := rfl
@[simp] theorem State.answer_rc (r : Response) : (s.answer r).rc = s.rc := rfl
@[simp] theorem State.answer_seqErr (r : Response) : (s.answer r).seqErr = s.seqErr := rfl
@[simp] theorem State.answer_illCmd (r : Response) : (s.answer r).illCmd = s.illCmd := rfl
@[simp] theorem State.answer_data (r : Response) : (s.answer r).data = s.data := rfl
@[simp] theorem State.answer_pending (r : Response) : (s.answer r).pending = s.pending := rfl
@[simp] theorem State.answer_response (r : Response) : (s.answer r).response = r := rfl

/-! ## raiseBusError -/

@[simp] theorem State.raiseBusError_cfg : (s.raiseBusError).cfg = s.cfg := rfl
@[simp] theorem State.raiseBusError_phase : (s.raiseBusError).phase = s.phase := rfl
@[simp] theorem State.raiseBusError_mem : (s.raiseBusError).mem = s.mem := rfl
@[simp] theorem State.raiseBusError_accLen : (s.raiseBusError).accLen = s.accLen := rfl
@[simp] theorem State.raiseBusError_feedPos : (s.raiseBusError).feedPos = s.feedPos := rfl
@[simp] theorem State.raiseBusError_feedEnd : (s.raiseBusError).feedEnd = s.feedEnd := rfl
@[simp] theorem State.raiseBusError_dspType : (s.raiseBusError).dspType = s.dspType := rfl
@[simp] theorem State.raiseBusError_dspLen : (s.raiseBusError).dspLen = s.dspLen := rfl
@[simp] theorem State.raiseBusError_dspOff : (s.raiseBusError).dspOff = s.dspOff := rfl
@[simp] theorem State.raiseBusError_hen : (s.raiseBusError).hen = s.hen := rfl
@[simp] theorem State.raiseBusError_rxOff : (s.raiseBusError).rxOff = s.rxOff := rfl
@[simp] theorem State.raiseBusError_slots : (s.raiseBusError).slots = s.slots := rfl
@[simp] theorem State.raiseBusError_qHead : (s.raiseBusError).qHead = s.qHead := rfl
@[simp] theorem State.raiseBusError_qCount : (s.raiseBusError).qCount = s.qCount := rfl
@[simp] theorem State.raiseBusError_pbufLen : (s.raiseBusError).pbufLen = s.pbufLen := rfl
@[simp] theorem State.raiseBusError_rspLen : (s.raiseBusError).rspLen = s.rspLen := rfl
@[simp] theorem State.raiseBusError_txLen : (s.raiseBusError).txLen = s.txLen := rfl
@[simp] theorem State.raiseBusError_result : (s.raiseBusError).result = s.result := rfl
@[simp] theorem State.raiseBusError_rc : (s.raiseBusError).rc = s.rc := rfl
@[simp] theorem State.raiseBusError_seqErr : (s.raiseBusError).seqErr = s.seqErr := rfl
@[simp] theorem State.raiseBusError_illCmd : (s.raiseBusError).illCmd = s.illCmd := rfl
@[simp] theorem State.raiseBusError_data : (s.raiseBusError).data = s.data := rfl
@[simp] theorem State.raiseBusError_pending : (s.raiseBusError).pending = s.pending := rfl
@[simp] theorem State.raiseBusError_response : (s.raiseBusError).response = .busError := rfl

end Sys2Proof.Machine
end

