-- ==== Sys2Proof/Laws/Ops.lean ====
section
/-! SUPPORT. What each shared operation over buffers, operands and phases can do, said once. -/

namespace Sys2Proof.Machine

/-! ## Buffers -/

/-- The buffers' windows do not meet, as long as each fits its 4096 bytes. -/
theorem Buffer.start_add_ne {b b' : Buffer} (h : b ≠ b') {i j : Nat} (hi : i < 4096) (hj : j < 4096) :
    b.start + i ≠ b'.start + j := by
  cases b <;> cases b' <;> simp only [Buffer.start] <;> first | contradiction | omega

/-- Writing one byte of a buffer: that byte changes, no other byte of that buffer does. -/
theorem State.byteAt_putByte_same (s : State) (b : Buffer) (i : Nat) (v : Byte) (j : Nat) :
    (s.putByte b i v).byteAt b j = if i = j then v else s.byteAt b j := by
  simp only [State.byteAt, State.putByte_mem, Memory.get_put, Nat.add_left_cancel_iff]

/-- Writing one byte of a buffer leaves every other buffer alone. -/
theorem State.byteAt_putByte_other (s : State) {b b' : Buffer} (h : b ≠ b') {i j : Nat} (hi : i < 4096) (hj : j < 4096)
    (v : Byte) : (s.putByte b i v).byteAt b' j = s.byteAt b' j := by
  simp only [State.byteAt, State.putByte_mem]
  exact Memory.get_put_other _ _ (Buffer.start_add_ne h hi hj)

/-- Writing a sequence into a buffer. -/
theorem State.byteAt_putBytes_same (s : State) (b : Buffer) (i : Nat) (vs : List Byte) (j : Nat) :
    (s.putBytes b i vs).byteAt b j = if i ≤ j ∧ j < i + vs.length then vs.getD (j - i) Memory.fill else s.byteAt b j := by
  simp only [State.byteAt, State.putBytes_mem, Memory.get_putBytes]
  have h1 : (b.start + i ≤ b.start + j ∧ b.start + j < b.start + i + vs.length) ↔ (i ≤ j ∧ j < i + vs.length) := by omega
  have h2 : b.start + j - (b.start + i) = j - i := by omega
  simp only [h1, h2]

/-- Writing a sequence into a buffer leaves every other buffer alone. -/
theorem State.byteAt_putBytes_other (s : State) {b b' : Buffer} (h : b ≠ b') {i j : Nat} (vs : List Byte)
    (hi : i + vs.length ≤ 4096) (hj : j < 4096) : (s.putBytes b i vs).byteAt b' j = s.byteAt b' j := by
  simp only [State.byteAt, State.putBytes_mem, Memory.get_putBytes]
  rw [if_neg]
  rintro ⟨h1, h2⟩
  obtain ⟨k, hk⟩ := Nat.exists_eq_add_of_le h1
  have hk4 : i + k < 4096 := by omega
  exact Buffer.start_add_ne h hk4 hj (by omega)

@[simp] theorem State.length_bytesOf (s : State) (b : Buffer) (n : Nat) : (s.bytesOf b n).length = n := by
  simp [State.bytesOf]

theorem State.getD_bytesOf (s : State) (b : Buffer) {n i : Nat} (h : i < n) (d : Byte) :
    (s.bytesOf b n).getD i d = s.byteAt b i := by
  exact Memory.getD_bytes _ _ _ _ h _

/-- Reading back what was written at the front of a buffer. -/
theorem State.bytesOf_putBytes (s : State) (b : Buffer) (vs : List Byte) : (s.putBytes b 0 vs).bytesOf b vs.length = vs := by
  simp only [State.bytesOf, State.putBytes_mem, Nat.add_zero]
  exact Memory.bytes_putBytes _ _ _

/-! ## Operands -/

theorem State.parityArgsOk_iff (s : State) (last pidx : Nat) :
    s.parityArgsOk last pidx = true ↔ 1 ≤ last ∧ last < pidx ∧ pidx + 1 < s.pbufLen := by
  simp only [State.parityArgsOk, Bool.and_eq_true, decide_eq_true_eq, and_assoc]
  rfl

theorem State.beArgsOk_iff (s : State) (off w : Nat) : s.beArgsOk off w = true ↔ off + w ≤ s.pbufLen := by
  simp [State.beArgsOk]

/-- The XOR reduction as a fold over the covered bytes PBUF[1..last]. -/
theorem State.xorRange_eq_foldl (s : State) (last : Nat) :
    s.xorRange last = (List.range last).foldl (fun x k => x ^^^ s.byteAt .pbuf (k + 1)) 0#8 := by
  simp only [State.xorRange, parityStart, typeIndex, Nat.add_sub_cancel, Nat.add_comm 1]

@[simp] theorem State.xorRange_zero (s : State) : s.xorRange 0 = 0#8 := rfl

@[simp] theorem State.xorRange_succ (s : State) (k : Nat) :
    s.xorRange (k + 1) = s.xorRange k ^^^ s.byteAt .pbuf (k + 1) := by
  simp [State.xorRange_eq_foldl, List.range_succ]

/-- The XOR reduction reads PBUF[1..last] and nothing else. -/
theorem State.xorRange_congr (s s' : State) (last : Nat)
    (h : ∀ k, 1 ≤ k → k ≤ last → s.byteAt .pbuf k = s'.byteAt .pbuf k) : s.xorRange last = s'.xorRange last := by
  induction last with
  | zero => rfl
  | succ k ih =>
    simp only [State.xorRange_succ]
    rw [ih (fun j h1 h2 => h j h1 (by omega)), h (k + 1) (by omega) (by omega)]

theorem validStatus_iff (c : Config) (b : Byte) : validStatus c b = true ↔ b = c.readyByte ∨ b = c.busyByte := by
  simp [validStatus]

theorem State.routable_iff (s : State) (t : Byte) :
    s.routable t = true ↔ s.cfg.knownTypes.getLsbD t.toNat = true ∧ s.hen.getLsbD t.toNat = true := by
  simp [State.routable, Config.knows, State.handlerBit]

/-- Whether a type is routable depends on the configuration and the handler table alone. -/
theorem State.routable_congr {s t : State} (hc : t.cfg = s.cfg) (hh : t.hen = s.hen) : t.routable = s.routable := by
  funext b
  simp [State.routable, State.handlerBit, hc, hh]

/-! ## Acceptance -/

/-- What a command of one phase can do: run, or be refused with SEQERR. -/
theorem onlyIn_cases {p : Phase} {s t : State} {run : State → State} (h : onlyIn p s run = .next t) :
    (s.phase = p ∧ t = run s) ∨ (s.phase ≠ p ∧ t = s.rejectSeq) := by
  unfold onlyIn at h
  split at h
  · next hp => exact .inl ⟨hp, by simpa using h.symm⟩
  · next hp => exact .inr ⟨hp, by simpa using h.symm⟩

theorem onlyIn_accepted {p : Phase} {s : State} (run : State → State) (h : s.phase = p) :
    onlyIn p s run = .next (run s) := if_pos h

theorem onlyIn_refused {p : Phase} {s : State} (run : State → State) (h : s.phase ≠ p) :
    onlyIn p s run = .next s.rejectSeq := if_neg h

theorem inBoth_cases {s t : State} {run : State → State} (h : inBoth s run = .next t) : t = run s := by
  simpa [inBoth] using h.symm

/-- A parity command of scheme BYTE or BIT runs on good operands and ends with ARG on others. -/
theorem withParityArgs_cases (last pidx : Nat) (run : State → State) (s : State) :
    (s.parityArgsOk last pidx = true ∧ withParityArgs last pidx run s = run s) ∨
    (s.parityArgsOk last pidx = false ∧ withParityArgs last pidx run s = s.fail .arg) := by
  unfold withParityArgs
  cases h : s.parityArgsOk last pidx <;> simp

/-- A byte-order command runs on a field inside the frame and ends with ARG on another. -/
theorem withBeArgs_cases (off w : Nat) (run : State → State) (s : State) :
    (s.beArgsOk off w = true ∧ withBeArgs off w run s = run s) ∨
    (s.beArgsOk off w = false ∧ withBeArgs off w run s = s.fail .arg) := by
  unfold withBeArgs
  cases h : s.beArgsOk off w <;> simp

/-- A validation changes RC and RESULT only: ARG, FRAME or OK. -/
theorem validateFrame_cases (hdr tail ty : Byte) (l : Nat) (s : State) :
    ((l < 4 ∨ s.pbufLen < l) ∧ validateFrame hdr tail ty l s = s.fail .arg) ∨
    (4 ≤ l ∧ l ≤ s.pbufLen ∧
      (s.byteAt .pbuf 0 ≠ hdr ∨ s.byteAt .pbuf 1 ≠ ty ∨ s.byteAt .pbuf (l - 1) ≠ tail) ∧
      validateFrame hdr tail ty l s = s.fail .frame) ∨
    (4 ≤ l ∧ l ≤ s.pbufLen ∧ s.byteAt .pbuf 0 = hdr ∧ s.byteAt .pbuf 1 = ty ∧ s.byteAt .pbuf (l - 1) = tail ∧
      validateFrame hdr tail ty l s = s.finishOk 0#32) := by
  unfold validateFrame minFrame hdrIndex typeIndex
  by_cases h1 : l < 4 ∨ s.pbufLen < l
  · exact .inl ⟨h1, if_pos h1⟩
  · rw [if_neg h1]
    have h4 : 4 ≤ l ∧ l ≤ s.pbufLen := by omega
    by_cases h2 : s.byteAt .pbuf 0 ≠ hdr ∨ s.byteAt .pbuf 1 ≠ ty ∨ s.byteAt .pbuf (l - 1) ≠ tail
    · exact .inr (.inl ⟨h4.1, h4.2, h2, if_pos h2⟩)
    · rw [if_neg h2]
      simp only [not_or, not_not] at h2
      exact .inr (.inr ⟨h4.1, h4.2, h2.1, h2.2.1, h2.2.2, rfl⟩)

/-! ## The end of a preparation -/

/-- A preparation writes TXBUF from its start, TX_LEN, RC and RESULT. -/
theorem State.finishPrepare_eq (s : State) (tx : List Byte) (h : Handshake) (consumed : Bool) :
    s.finishPrepare tx h consumed =
      { s with mem := s.mem.putBytes 0x3000 tx, txLen := tx.length, rc := .ok, result := handshakeResult h consumed } := rfl

/-- A preparation ends in one of three ways: the uniform fallback, the response with its padding, or a status pattern. -/
theorem prepareTx_cases (b : Byte) (n : Nat) (rsp : Option (List Byte)) (s : State) :
    ((n = 0 ∨ s.cfg.txSize < n ∨ validStatus s.cfg b = false ∨ ∃ f, rsp = some f ∧ n < f.length) ∧
      prepareTx b n rsp s = s.finishPrepare (List.replicate (min n s.cfg.txSize) b) .unrecognized false) ∨
    (0 < n ∧ n ≤ s.cfg.txSize ∧ validStatus s.cfg b = true ∧ ∃ f, rsp = some f ∧ f.length ≤ n ∧
      prepareTx b n rsp s = s.finishPrepare (f ++ List.replicate (n - f.length) b) .response true) ∨
    (0 < n ∧ n ≤ s.cfg.txSize ∧ validStatus s.cfg b = true ∧ rsp = none ∧
      prepareTx b n rsp s =
        s.finishPrepare (List.replicate n b) (if b = s.cfg.readyByte then .ready else .busy) false) := by
  unfold prepareTx
  by_cases h : n = 0 ∨ s.cfg.txSize < n ∨ validStatus s.cfg b = false
  · refine .inl ⟨?_, if_pos h⟩
    rcases h with h | h | h
    · exact .inl h
    · exact .inr (.inl h)
    · exact .inr (.inr (.inl h))
  · simp only [if_neg h]
    simp only [not_or, Bool.not_eq_false] at h
    have h0 : 0 < n := by omega
    have h1 : n ≤ s.cfg.txSize := by omega
    cases rsp with
    | none => exact .inr (.inr ⟨h0, h1, h.2.2, rfl, rfl⟩)
    | some f =>
      by_cases hf : n < f.length
      · exact .inl ⟨.inr (.inr (.inr ⟨f, rfl, hf⟩)), if_pos hf⟩
      · exact .inr (.inl ⟨h0, h1, h.2.2, f, rfl, by omega, if_neg hf⟩)

end Sys2Proof.Machine
end

