-- ==== Sys2Proof/Laws/Bus.lean ====
section
/-! SUPPORT. The bus port: what serving an access can do, said once (20_memory.md R60 to R66). -/

namespace Sys2Proof.Machine

theorem offsetOf_some {c : Config} {addr off : Nat} (h : offsetOf c addr = some off) :
    addr = c.base + off ∧ off < 0x8000 := by
  unfold offsetOf windowSize at h
  split at h
  · next hc => simp at h; omega
  · simp at h

theorem offsetOf_base (c : Config) (off : Nat) (h : off < 0x8000) : offsetOf c (c.base + off) = some off := by
  unfold offsetOf windowSize
  rw [if_pos (by omega)]
  simp

theorem inBuffer_some {c : Config} {b : Buffer} {k : Nat} {t : ByteTarget} (h : inBuffer c b k = some t) :
    k < b.size c ∧ t = .buffer b k := by
  unfold inBuffer at h
  split at h
  · next hk => exact ⟨hk, by simpa using h.symm⟩
  · contradiction

/-- A byte access reaches a byte inside a buffer, or the DFRAME view. -/
theorem byteTarget_buffer {c : Config} {off : Nat} {b : Buffer} {k : Nat} (h : byteTarget c off = some (.buffer b k)) :
    k < b.size c ∧ off = b.start + k := by
  have hdm := Nat.div_add_mod off 0x1000
  unfold byteTarget at h
  dsimp only at h
  split at h
  case h_6 => simp at h
  case h_7 => contradiction
  all_goals
    rename_i hd
    rw [hd] at hdm
    obtain ⟨hk, ht⟩ := inBuffer_some h
    cases ht
    exact ⟨hk, by simp only [Buffer.start]; omega⟩

theorem atAddress_next {addr : Nat} {s t : State} {run : Nat → Host.Outcome State Fault Refusal}
    (h : atAddress addr s run = .next t) : ∃ off, offsetOf s.cfg addr = some off ∧ run off = .next t := by
  unfold atAddress at h
  split at h
  · next off ho => exact ⟨off, ho, h⟩
  · contradiction

/-- A read changes the answer and nothing else (20_memory.md R77). -/
theorem busRead_eq (w : Width) (off : Nat) (s : State) : ∃ r, busRead w off s = s.answer r := by
  unfold busRead
  cases w
  · dsimp only
    split
    · exact ⟨_, rfl⟩
    · exact ⟨.busError, rfl⟩
  · exact ⟨.busError, rfl⟩
  · dsimp only
    split
    · exact ⟨_, rfl⟩
    · exact ⟨.busError, rfl⟩

/-- What a byte write can do: store in PBUF, RBUF or RXBUF inside its size, be ignored, or end in a bus error. -/
theorem busWrite8_cases (off : Nat) (v : Byte) (s : State) :
    (∃ b k, byteTarget s.cfg off = some (.buffer b k) ∧ (b = .pbuf ∨ b = .rbuf ∨ b = .rxbuf) ∧
      busWrite8 off v s = (s.answer .done).putByte b k v) ∨
    (∃ t, byteTarget s.cfg off = some t ∧ busWrite8 off v s = s.answer .done) ∨
    (byteTarget s.cfg off = none ∧ busWrite8 off v s = s.raiseBusError) := by
  unfold busWrite8
  cases h : byteTarget s.cfg off with
  | none => exact .inr (.inr ⟨rfl, rfl⟩)
  | some t =>
    cases t with
    | dframe k => exact .inr (.inl ⟨_, rfl, rfl⟩)
    | buffer b k =>
      cases b
      · exact .inl ⟨_, _, rfl, by simp, rfl⟩
      · exact .inl ⟨_, _, rfl, by simp, rfl⟩
      · exact .inr (.inl ⟨_, rfl, rfl⟩)
      · exact .inl ⟨_, _, rfl, by simp, rfl⟩
      · exact .inr (.inl ⟨_, rfl, rfl⟩)

/-- What a 32-bit write can do: execute a command, apply a CSR's write rule, or end in a bus error. -/
theorem busWrite32_cases (off : Nat) (v : Word) (s : State) :
    (csrAt off = some .cmd ∧ busWrite32 off v s = executeCommand v (s.answer .done)) ∨
    (∃ c, csrAt off = some c ∧ c ≠ .cmd ∧ busWrite32 off v s = .next ((s.answer .done).writeCsr v c)) ∨
    (csrAt off = none ∧ busWrite32 off v s = .next s.raiseBusError) := by
  unfold busWrite32
  cases h : csrAt off with
  | none => exact .inr (.inr ⟨rfl, rfl⟩)
  | some c =>
    by_cases hc : c = .cmd
    · subst hc; exact .inl ⟨rfl, rfl⟩
    · refine .inr (.inl ⟨c, rfl, hc, ?_⟩)
      cases c <;> first | contradiction | rfl

/-- A command word is refused with ILLCMD, or is the command it decodes to (60_exceptions.md R260). -/
theorem executeCommand_cases (v : Word) (s : State) :
    (∃ e, decode v = .error e ∧ executeCommand v s = .next s.rejectIll) ∨
    (∃ i, decode v = .ok i ∧ executeCommand v s = exec i s) := by
  unfold executeCommand
  cases h : decode v with
  | error e => exact .inl ⟨e, rfl, rfl⟩
  | ok i => exact .inr ⟨i, rfl, rfl⟩

/-- What a CSR write can do, register by register (10_state.md R26, R27, R33, R34, R37, R38, R43). -/
theorem writeCsr_cases (s : State) (w : Word) (c : Csr) :
    (c = .status ∧ s.writeCsr w c = s.writeStatus w) ∨
    (c = .pbufLen ∧ s.writeCsr w c = { s with pbufLen := warl w s.cfg.pbufSize }) ∨
    (c = .rspLen ∧ s.writeCsr w c = { s with rspLen := warl w s.cfg.rbufSize }) ∨
    (c = .data ∧ s.writeCsr w c = { s with data := w }) ∨
    (c = .rxOff ∧ s.writeCsr w c = { s with rxOff := warl w s.cfg.rxSize }) ∨
    (∃ k, c = .hen k ∧ s.writeCsr w c = s.writeHen k w) ∨
    s.writeCsr w c = s := by
  cases c <;> simp [State.writeCsr]

/-- What a step can do: nothing with no access pending, or serve the oldest. -/
theorem servePort_cases {s t : State} (h : servePort s = .next t) :
    s.cfg.wellFormed = true ∧
    ((s.pending = [] ∧ t = s) ∨
     ∃ a rest, s.pending = a :: rest ∧ serve a { s with pending := rest } = .next t) := by
  unfold servePort at h
  split at h
  · next hw =>
    refine ⟨hw, ?_⟩
    split at h
    · next hp => exact .inl ⟨hp, by simpa using h.symm⟩
    · next a rest hp => exact .inr ⟨a, rest, hp, h⟩
  · contradiction

end Sys2Proof.Machine
end

