-- ==== Sys2Proof/Laws/Decode.lean ====
section
/-! SUPPORT. The fields of a command word, read back from the word that was built of them. -/

namespace Sys2Proof

@[simp] theorem opField_cmdWord (op b : Byte) (n : Nat) : opField (cmdWord op b n) = op := by
  apply BitVec.eq_of_getLsbD_eq
  intro i hi
  simp only [opField, cmdWord, BitVec.getLsbD_extractLsb', BitVec.getLsbD_append]
  have h1 : ¬ (24 + i < 16) := by omega
  have h2 : ¬ (24 + i - 16 < 8) := by omega
  have h3 : 24 + i - 16 - 8 = i := by omega
  simp [hi, h1, h2, h3]

@[simp] theorem bField_cmdWord (op b : Byte) (n : Nat) : bField (cmdWord op b n) = b := by
  apply BitVec.eq_of_getLsbD_eq
  intro i hi
  simp only [bField, cmdWord, BitVec.getLsbD_extractLsb', BitVec.getLsbD_append]
  have h1 : 16 + i - 16 = i := by omega
  simp [hi]

theorem nField_cmdWord (op b : Byte) (n : Nat) (h : n < 65536) : nField (cmdWord op b n) = n := by
  have : (cmdWord op b n).extractLsb' 0 16 = BitVec.ofNat 16 n := by
    apply BitVec.eq_of_getLsbD_eq
    intro i hi
    simp only [cmdWord, BitVec.getLsbD_extractLsb', BitVec.getLsbD_append]
    simp [hi]
  rw [nField, this, BitVec.toNat_ofNat]
  exact Nat.mod_eq_of_lt h

theorem nField_lt (w : Word) : nField w < 65536 := (w.extractLsb' 0 16).isLt

theorem bNumber_lt (w : Word) : bNumber w < 256 := (bField w).isLt

@[simp] theorem bNumber_cmdWord (op b : Byte) (n : Nat) : bNumber (cmdWord op b n) = b.toNat := by
  simp [bNumber]

@[simp] theorem opField_encode (i : Instr) : opField (encode i) = i.opcode := opField_cmdWord ..

@[simp] theorem bField_encode (i : Instr) : bField (encode i) = i.bOperand := bField_cmdWord ..

end Sys2Proof
end

