-- ==== Sys2Proof/Laws/PerInstr.lean ====
section
/-! SUPPORT. A statement made of every instruction: in the encoding, OP is the instruction's own opcode, which is one of the
23 legal values (30_encoding.md R104, R106). One lemma per constructor of Instr. -/

namespace Sys2Proof

/-- The 23 legal OP values (30_encoding.md R104). -/
def legalOps : List Byte :=
  [0x10#8, 0x11#8, 0x20#8, 0x21#8, 0x22#8, 0x30#8, 0x31#8, 0x32#8, 0x40#8, 0x41#8, 0x50#8, 0x51#8, 0x52#8, 0x54#8, 0x55#8,
   0x56#8, 0x58#8, 0x59#8, 0x5A#8, 0x60#8, 0x61#8, 0x62#8, 0x63#8]

namespace Laws.OpcodeField

def Statement (i : Instr) : Prop := opField (encode i) = i.opcode ∧ i.opcode ∈ legalOps

theorem feed (n : Nat) : Statement (.feed n) :=
  ⟨opField_encode _, by simp [Instr.opcode, legalOps]⟩

theorem ack : Statement (.ack) :=
  ⟨opField_encode _, by simp [Instr.opcode, legalOps]⟩

theorem push : Statement (.push) :=
  ⟨opField_encode _, by simp [Instr.opcode, legalOps]⟩

theorem pop (n : Nat) : Statement (.pop n) :=
  ⟨opField_encode _, by simp [Instr.opcode, legalOps]⟩

theorem count : Statement (.count) :=
  ⟨opField_encode _, by simp [Instr.opcode, legalOps]⟩

theorem cstatus (n : Nat) : Statement (.cstatus n) :=
  ⟨opField_encode _, by simp [Instr.opcode, legalOps]⟩

theorem prepare (s : Byte) (n : Nat) : Statement (.prepare s n) :=
  ⟨opField_encode _, by simp [Instr.opcode, legalOps]⟩

theorem prepareRsp (s : Byte) (n : Nat) : Statement (.prepareRsp s n) :=
  ⟨opField_encode _, by simp [Instr.opcode, legalOps]⟩

theorem valreq (t : Byte) (l : Nat) : Statement (.valreq t l) :=
  ⟨opField_encode _, by simp [Instr.opcode, legalOps]⟩

theorem valrsp (t : Byte) (l : Nat) : Statement (.valrsp t l) :=
  ⟨opField_encode _, by simp [Instr.opcode, legalOps]⟩

theorem pcalcByte (last : Nat) (pidx : Nat) : Statement (.pcalcByte last pidx) :=
  ⟨opField_encode _, by simp [Instr.opcode, legalOps]⟩

theorem pchkByte (last : Nat) (pidx : Nat) : Statement (.pchkByte last pidx) :=
  ⟨opField_encode _, by simp [Instr.opcode, legalOps]⟩

theorem psetByte (last : Nat) (pidx : Nat) : Statement (.psetByte last pidx) :=
  ⟨opField_encode _, by simp [Instr.opcode, legalOps]⟩

theorem pcalcBit (last : Nat) (pidx : Nat) : Statement (.pcalcBit last pidx) :=
  ⟨opField_encode _, by simp [Instr.opcode, legalOps]⟩

theorem pchkBit (last : Nat) (pidx : Nat) : Statement (.pchkBit last pidx) :=
  ⟨opField_encode _, by simp [Instr.opcode, legalOps]⟩

theorem psetBit (last : Nat) (pidx : Nat) : Statement (.psetBit last pidx) :=
  ⟨opField_encode _, by simp [Instr.opcode, legalOps]⟩

theorem pcalcNone : Statement (.pcalcNone) :=
  ⟨opField_encode _, by simp [Instr.opcode, legalOps]⟩

theorem pchkNone : Statement (.pchkNone) :=
  ⟨opField_encode _, by simp [Instr.opcode, legalOps]⟩

theorem psetNone : Statement (.psetNone) :=
  ⟨opField_encode _, by simp [Instr.opcode, legalOps]⟩

theorem get16 (off : Nat) : Statement (.get16 off) :=
  ⟨opField_encode _, by simp [Instr.opcode, legalOps]⟩

theorem get32 (off : Nat) : Statement (.get32 off) :=
  ⟨opField_encode _, by simp [Instr.opcode, legalOps]⟩

theorem put16 (off : Nat) : Statement (.put16 off) :=
  ⟨opField_encode _, by simp [Instr.opcode, legalOps]⟩

theorem put32 (off : Nat) : Statement (.put32 off) :=
  ⟨opField_encode _, by simp [Instr.opcode, legalOps]⟩

end Laws.OpcodeField

end Sys2Proof
end

