-- ==== Sys2Proof/Laws/Queue.lean ====
section
/-! SUPPORT. The ring of the response queue: what storing and releasing an entry does to the sequence of entries
(10_state.md R35, R36). -/

namespace Sys2Proof.Machine

theorem Slot.frame_store (q : Slot) (f : List Byte) : (q.store f).frame = f := by
  simp [Slot.frame, Slot.store]

theorem State.slot_enqueue (s : State) (f : List Byte) (k : Nat) (h : (s.qHead + s.qCount) % s.cfg.qDepth < s.slots.length) :
    (s.enqueue f).slot k =
      if (s.qHead + s.qCount) % s.cfg.qDepth = k then (s.slot ((s.qHead + s.qCount) % s.cfg.qDepth)).store f else s.slot k := by
  simp only [State.slot, State.enqueue_slots, List.getD_eq_getElem?_getD, List.getElem?_set]
  split
  · next hk => simp [h]
  · rfl

/-- Two places of a ring less than a turn apart are different. -/
theorem ring_ne (d h e n : Nat) (he : e < n) (hn : n < d) : (h + n) % d ≠ (h + e) % d := by
  intro heq
  have h1 : (h + e) ≡ (h + n) [MOD d] := heq.symm
  have h2 : d ∣ (h + n) - (h + e) := (Nat.modEq_iff_dvd' (by omega)).mp h1
  have h3 := Nat.le_of_dvd (by omega) h2
  omega

/-- Storing an entry after the newest appends it to the sequence of entries. -/
theorem State.entries_enqueue (s : State) (f : List Byte) (hc : s.qCount < s.cfg.qDepth)
    (hl : s.slots.length = s.cfg.qDepth) : (s.enqueue f).entries = s.entries ++ [f] := by
  have hk : (s.qHead + s.qCount) % s.cfg.qDepth < s.slots.length := by
    rw [hl]; exact Nat.mod_lt _ (by omega)
  simp only [State.entries, State.enqueue_qCount, List.range_succ, List.map_append, List.map_cons, List.map_nil]
  congr 1
  · refine List.map_congr_left (fun e he => ?_)
    have he' := List.mem_range.mp he
    simp only [State.slotIndex, State.enqueue_qHead, State.enqueue_cfg]
    rw [State.slot_enqueue s f _ hk, if_neg (ring_ne _ _ _ _ he' hc)]
  · simp only [State.slotIndex, State.enqueue_qHead, State.enqueue_cfg]
    rw [State.slot_enqueue s f _ hk, if_pos rfl, Slot.frame_store]

/-- Releasing the oldest entry removes it from the front of the sequence. -/
theorem State.entries_dequeue (s : State) (h : 0 < s.qCount) (hh : s.qHead < s.cfg.qDepth) :
    s.entries = (s.slot s.qHead).frame :: s.dequeue.entries := by
  obtain ⟨n, hn⟩ : ∃ n, s.qCount = n + 1 := ⟨s.qCount - 1, by omega⟩
  simp only [State.entries, State.dequeue_qCount, hn, Nat.add_sub_cancel, List.range_succ_eq_map, List.map_cons,
    List.map_map]
  congr 1
  · simp [State.slotIndex, Nat.mod_eq_of_lt hh]
  · refine List.map_congr_left (fun e _ => ?_)
    simp only [Function.comp, State.slotIndex, State.dequeue_qHead, State.dequeue_cfg, State.slot, State.dequeue_slots]
    have : (s.qHead + (e + 1)) % s.cfg.qDepth = ((s.qHead + 1) % s.cfg.qDepth + e) % s.cfg.qDepth := by
      rw [Nat.mod_add_mod]; congr 1; omega
    rw [Nat.succ_eq_add_one, this]

/-- The sequence of entries depends on the ring alone. -/
theorem State.entries_congr {s t : State} (h1 : t.slots = s.slots) (h2 : t.qHead = s.qHead) (h3 : t.qCount = s.qCount)
    (h4 : t.cfg = s.cfg) : t.entries = s.entries := by
  simp only [State.entries, State.slotIndex, State.slot, h1, h2, h3, h4]

@[simp] theorem State.length_entries (s : State) : s.entries.length = s.qCount := by simp [State.entries]

/-! ## The queue commands -/

/-- What PUSH can do, its checks in their order (42_queue.md R201). -/
theorem pushFrame_cases (s : State) :
    (s.pbufLen = 0 ∧ pushFrame s = s.fail .arg) ∨
    (s.pbufLen ≠ 0 ∧ (s.qCount = s.cfg.qDepth ∨ s.cfg.qFrameMax < s.pbufLen) ∧ pushFrame s = s.fail .alloc) ∨
    (s.pbufLen ≠ 0 ∧ s.qCount ≠ s.cfg.qDepth ∧ s.pbufLen ≤ s.cfg.qFrameMax ∧
      pushFrame s = (s.enqueue (s.bytesOf .pbuf s.pbufLen)).finishOk (zext (s.qCount + 1))) := by
  unfold pushFrame
  by_cases h1 : s.pbufLen = 0
  · exact .inl ⟨h1, if_pos h1⟩
  · by_cases h2 : s.qCount = s.cfg.qDepth
    · exact .inr (.inl ⟨h1, .inl h2, by rw [if_neg h1, if_pos h2]⟩)
    · by_cases h3 : s.cfg.qFrameMax < s.pbufLen
      · exact .inr (.inl ⟨h1, .inr h3, by rw [if_neg h1, if_neg h2, if_pos h3]⟩)
      · exact .inr (.inr ⟨h1, h2, by omega, by rw [if_neg h1, if_neg h2, if_neg h3]; rfl⟩)

/-- What POP can do, its checks in their order (42_queue.md R203). -/
theorem popFrame_cases (c : Nat) (s : State) :
    (s.cfg.rbufSize < c ∧ popFrame c s = s.fail .arg) ∨
    (c ≤ s.cfg.rbufSize ∧ s.qCount = 0 ∧ popFrame c s = { s with rspLen := 0 }.finishOk 0#32) ∨
    (c ≤ s.cfg.rbufSize ∧ s.qCount ≠ 0 ∧ c < (s.slot s.qHead).len ∧ popFrame c s = { s with rspLen := 0 }.fail .range) ∨
    (c ≤ s.cfg.rbufSize ∧ s.qCount ≠ 0 ∧ (s.slot s.qHead).len ≤ c ∧
      popFrame c s = { s.putBytes .rbuf 0 (s.slot s.qHead).frame with rspLen := (s.slot s.qHead).len }.dequeue.finishOk
        (zext (s.slot s.qHead).len)) := by
  unfold popFrame
  by_cases h1 : s.cfg.rbufSize < c
  · exact .inl ⟨h1, if_pos h1⟩
  · by_cases h2 : s.qCount = 0
    · exact .inr (.inl ⟨by omega, h2, by rw [if_neg h1, if_pos h2]⟩)
    · by_cases h3 : c < (s.slot s.qHead).len
      · exact .inr (.inr (.inl ⟨by omega, h2, h3, by simp only [if_neg h1, if_neg h2, if_pos h3]⟩))
      · exact .inr (.inr (.inr ⟨by omega, h2, by omega, by simp only [if_neg h1, if_neg h2, if_neg h3]⟩))

end Sys2Proof.Machine
end

