-- ==== Sys2Proof/Laws/Router.lean ====
section
/-! SUPPORT. The router: what the byte step, the byte loop and the whole-frame policy can do, said once. -/

namespace Sys2Proof.Machine

/-! ## What the router changes -/

/-- Two states that agree on everything the router never writes: the router writes ACC (through the memory), ACC_LEN, FEED_POS,
PHASE and the three DSP registers. -/
def SameButRouter (s t : State) : Prop :=
  t = { s with mem := t.mem, accLen := t.accLen, feedPos := t.feedPos, phase := t.phase, dspType := t.dspType,
               dspLen := t.dspLen, dspOff := t.dspOff }

theorem SameButRouter.refl (s : State) : SameButRouter s s := rfl

theorem SameButRouter.trans {s t u : State} (h : SameButRouter s t) (h' : SameButRouter t u) : SameButRouter s u := by
  unfold SameButRouter at *
  rw [h'] at *
  rw [h]

/-- What the dispatch decision can do (41_router.md R163). -/
theorem dispatchAcc_cases (s : State) :
    (s.routable (s.byteAt .acc 1) = true ∧
      dispatchAcc s = (.suspend, { s with dspType := s.byteAt .acc 1, dspLen := s.accLen, dspOff := 0, phase := .dispatch })) ∨
    (s.routable (s.byteAt .acc 1) = false ∧ dispatchAcc s = (.cont, { s with accLen := 0 })) := by
  unfold dispatchAcc typeIndex
  cases h : s.routable (s.byteAt .acc 1) <;> simp [h]

/-- The tail scan finds the smallest index of a tail at 3 or above (41_router.md R162). -/
theorem State.findTail_some {s : State} {i : Nat} (h : s.findTail = some i) :
    3 ≤ i ∧ i < s.accLen ∧ s.byteAt .acc i = reqTail ∧ ∀ k, 3 ≤ k → k < i → s.byteAt .acc k ≠ reqTail := by
  have h1 := List.find?_some h
  have h2 := List.mem_range.mp (List.mem_of_find?_eq_some h)
  rw [Bool.and_eq_true, decide_eq_true_iff, beq_iff_eq] at h1
  refine ⟨h1.1, h2, h1.2, fun k hk hki heq => ?_⟩
  have h3 := (List.find?_range_eq_some.mp h).2.2 k hki
  simp [tailScanStart, hk, heq] at h3

theorem State.findTail_none {s : State} (h : s.findTail = none) :
    ∀ k, 3 ≤ k → k < s.accLen → s.byteAt .acc k ≠ reqTail := by
  intro k hk hlt heq
  have h1 := List.find?_eq_none.mp h k (List.mem_range.mpr hlt)
  simp [tailScanStart, hk, heq] at h1

/-- What the byte step can do, its checks in their order (41_router.md R162). -/
theorem accByte_cases (b : Byte) (s : State) :
    ((s.appendAcc b).byteAt .acc 0 ≠ reqHdr ∧ accByte b s = (.cont, { s.appendAcc b with accLen := 0 })) ∨
    ((s.appendAcc b).byteAt .acc 0 = reqHdr ∧ ∃ i, (s.appendAcc b).findTail = some i ∧
      accByte b s = dispatchAcc { s.appendAcc b with accLen := i + 1 }) ∨
    ((s.appendAcc b).byteAt .acc 0 = reqHdr ∧ (s.appendAcc b).findTail = none ∧ s.accLen + 1 = s.cfg.accCap ∧
      accByte b s = (.cont, { s.appendAcc b with accLen := 0 })) ∨
    ((s.appendAcc b).byteAt .acc 0 = reqHdr ∧ (s.appendAcc b).findTail = none ∧ s.accLen + 1 ≠ s.cfg.accCap ∧
      accByte b s = (.cont, s.appendAcc b)) := by
  unfold accByte hdrIndex
  by_cases h : (s.appendAcc b).byteAt .acc 0 ≠ reqHdr
  · exact .inl ⟨h, by simp [h]⟩
  · have h' := not_not.mp h
    cases hf : (s.appendAcc b).findTail with
    | some i => exact .inr (.inl ⟨h', i, rfl, by simp [h', hf]⟩)
    | none =>
      by_cases hc : s.accLen + 1 = s.cfg.accCap
      · exact .inr (.inr (.inl ⟨h', rfl, hc, by simp [h', hf, hc]⟩))
      · exact .inr (.inr (.inr ⟨h', rfl, hc, by simp [h', hf, hc]⟩))

theorem appendAcc_same (b : Byte) (s : State) : SameButRouter s (s.appendAcc b) := rfl

theorem dispatchAcc_same (s : State) : SameButRouter s (dispatchAcc s).2 := by
  rcases dispatchAcc_cases s with ⟨_, h⟩ | ⟨_, h⟩ <;> rw [h] <;> rfl

/-- The byte step changes nothing but the router's own state. -/
theorem accByte_same (b : Byte) (s : State) : SameButRouter s (accByte b s).2 := by
  rcases accByte_cases b s with ⟨_, h⟩ | ⟨_, i, _, h⟩ | ⟨_, _, _, h⟩ | ⟨_, _, _, h⟩ <;> rw [h]
  · rfl
  · exact SameButRouter.trans (t := { s.appendAcc b with accLen := i + 1 }) rfl (dispatchAcc_same _)
  · rfl
  · rfl

/-- The dispatch decision suspends exactly when it enters DISPATCH. -/
theorem dispatchAcc_flow (s : State) (h : s.phase = .idle) :
    ((dispatchAcc s).1 = .suspend ∧ (dispatchAcc s).2.phase = .dispatch) ∨
    ((dispatchAcc s).1 = .cont ∧ (dispatchAcc s).2.phase = .idle) := by
  rcases dispatchAcc_cases s with ⟨_, hd⟩ | ⟨_, hd⟩ <;> rw [hd] <;> simp [h]

/-- The byte step suspends exactly when it enters DISPATCH. -/
theorem accByte_flow (b : Byte) (s : State) (h : s.phase = .idle) :
    ((accByte b s).1 = .suspend ∧ (accByte b s).2.phase = .dispatch) ∨
    ((accByte b s).1 = .cont ∧ (accByte b s).2.phase = .idle) := by
  rcases accByte_cases b s with ⟨_, hd⟩ | ⟨_, i, _, hd⟩ | ⟨_, _, _, hd⟩ | ⟨_, _, _, hd⟩ <;> rw [hd]
  · exact .inr ⟨rfl, h⟩
  · exact dispatchAcc_flow _ h
  · exact .inr ⟨rfl, h⟩
  · exact .inr ⟨rfl, h⟩

/-- The byte step writes one byte of memory, ACC[ACC_LEN]. -/
theorem accByte_mem (b : Byte) (s : State) : (accByte b s).2.mem = s.mem.put (Buffer.start .acc + s.accLen) b := by
  rcases accByte_cases b s with ⟨_, h⟩ | ⟨_, i, _, h⟩ | ⟨_, _, _, h⟩ | ⟨_, _, _, h⟩ <;> rw [h] <;> try rfl
  rcases dispatchAcc_cases { s.appendAcc b with accLen := i + 1 } with ⟨_, hd⟩ | ⟨_, hd⟩ <;> rw [hd] <;> rfl

/-- The byte step leaves FEED_POS alone. -/
theorem accByte_feedPos (b : Byte) (s : State) : (accByte b s).2.feedPos = s.feedPos := by
  rcases accByte_cases b s with ⟨_, h⟩ | ⟨_, i, _, h⟩ | ⟨_, _, _, h⟩ | ⟨_, _, _, h⟩ <;> rw [h] <;> try rfl
  rcases dispatchAcc_cases { s.appendAcc b with accLen := i + 1 } with ⟨_, hd⟩ | ⟨_, hd⟩ <;> rw [hd] <;> rfl

/-! ## The byte loop -/

theorem loopTurn_same (s : State) : SameButRouter s (loopTurn s).2 :=
  SameButRouter.trans (t := { s with feedPos := s.feedPos + 1 }) rfl (accByte_same _ _)

theorem runTurns_zero (s : State) : runTurns 0 s = s := rfl

/-- One turn of the loop with bytes left. -/
theorem runTurns_succ (k : Nat) (s : State) (h : s.feedPos < s.feedEnd) :
    runTurns (k + 1) s = match loopTurn s with | (.cont, s') => runTurns k s' | (.suspend, s') => s' := by
  rw [runTurns]
  exact if_pos h

theorem runTurns_done (k : Nat) (s : State) (h : ¬ s.feedPos < s.feedEnd) : runTurns k s = s := by
  cases k with
  | zero => rfl
  | succ k => rw [runTurns, if_neg h]

/-- The byte loop changes nothing but the router's own state. -/
theorem runTurns_same (k : Nat) (s : State) : SameButRouter s (runTurns k s) := by
  induction k generalizing s with
  | zero => rfl
  | succ k ih =>
    by_cases h : s.feedPos < s.feedEnd
    · rw [runTurns_succ k s h]
      have hs := loopTurn_same s
      rcases hl : loopTurn s with ⟨f, s'⟩
      rw [hl] at hs
      cases f
      · exact hs.trans (ih s')
      · exact hs
    · rw [runTurns_done _ s h]; rfl

theorem runLoop_same (s : State) : SameButRouter s (runLoop s) := runTurns_same _ s

/-- An induction over the byte loop, packaged once: what one turn keeps, the loop keeps. -/
theorem runTurns_induct (P : State → Prop) (hturn : ∀ s, P s → s.feedPos < s.feedEnd → P (loopTurn s).2)
    (k : Nat) (s : State) (h : P s) : P (runTurns k s) := by
  induction k generalizing s with
  | zero => exact h
  | succ k ih =>
    by_cases hlt : s.feedPos < s.feedEnd
    · rw [runTurns_succ k s hlt]
      have hs := hturn s h hlt
      rcases hl : loopTurn s with ⟨f, s'⟩
      rw [hl] at hs
      cases f
      · exact ih s' hs
      · exact hs
    · rw [runTurns_done _ s hlt]; exact h

/-! ## The whole-frame policy -/

/-- A chunk is a frame for WHOLE_FRAME when its length, its first and its last byte say so (41_router.md R168). -/
theorem State.chunkIsFrame_iff (s : State) :
    s.chunkIsFrame = true ↔ 4 ≤ s.feedEnd - s.feedPos ∧ s.byteAt .rxbuf s.feedPos = 0xAA#8 ∧
      s.byteAt .rxbuf (s.feedEnd - 1) = 0x55#8 := by
  unfold State.chunkIsFrame minFrame hdrIndex reqHdr reqTail
  rw [Bool.and_eq_true, Bool.and_eq_true, decide_eq_true_iff, beq_iff_eq, beq_iff_eq, and_assoc, Nat.add_zero]

/-- What WHOLE_FRAME can do with a chunk: dispatch it as one frame, or drop it (41_router.md R168). -/
theorem wholeFrame_cases (s : State) :
    (s.chunkIsFrame = true ∧ s.routable (s.byteAt .rxbuf (s.feedPos + 1)) = true ∧
      wholeFrame s = { s with feedPos := s.feedEnd, dspType := s.byteAt .rxbuf (s.feedPos + 1),
                              dspLen := s.feedEnd - s.feedPos, dspOff := s.feedPos, phase := .dispatch }) ∨
    (¬ (s.chunkIsFrame = true ∧ s.routable (s.byteAt .rxbuf (s.feedPos + 1)) = true) ∧
      wholeFrame s = { s with feedPos := s.feedEnd }) := by
  unfold wholeFrame typeIndex
  by_cases h : s.chunkIsFrame = true ∧ s.routable (s.byteAt .rxbuf (s.feedPos + 1)) = true
  · exact .inl ⟨h.1, h.2, by simp [h.1, h.2]⟩
  · exact .inr ⟨h, by rw [← Bool.and_eq_true] at h; simp only [if_neg h]⟩

theorem wholeFrame_same (s : State) : SameButRouter s (wholeFrame s) := by
  rcases wholeFrame_cases s with ⟨_, _, h⟩ | ⟨_, h⟩ <;> rw [h] <;> rfl

end Sys2Proof.Machine
end

