-- ==== Sys2Proof/Tests/Slice0.lean ====
section
/-! SUPPORT. Tests of the SFSR model. The expected values of the command, register and decode tests are those of the vectors of
95_test_vectors.md (named in each comment), not the model's. The witness theorems show, for each obligation with hypotheses, a
concrete state and operands that meet them all, clause by clause and at the ends of each range. -/

namespace Sys2Proof.Tests

open Sys2Proof Sys2Proof.Machine

/-! ## Helpers -/

/-- The next state of an outcome, and `s` where it is a stop. -/
def nextOr (s : State) (o : Host.Outcome State Fault Refusal) : State :=
  match o with
  | .next t => t
  | .fault _ => s
  | .refused _ => s

/-- What a test looks at in the next state of an outcome; none where it is a stop. -/
def seen {α : Type} (o : Host.Outcome State Fault Refusal) (f : State → α) : Option α :=
  match o with
  | .next t => some (f t)
  | .fault _ => none
  | .refused _ => none

/-- RC and RESULT. -/
def ended (t : State) : ResultCode × Word := (t.rc, t.result)

/-- The state after a command, and after a step. -/
def after (i : Instr) (s : State) : State := nextOr s (exec i s)
def stepped (s : State) : State := nextOr s (step s)

theorem step_stepped {s : State} (h : seen (step s) (fun _ => true) = some true) : step s = .next (stepped s) := by
  unfold stepped
  cases hs : step s <;> simp [hs, seen, nextOr] at *

/-- One access on the port. -/
def on (s : State) (a : Access) : State := { s with pending := [a] }

/-- Reset, with PBUF and PBUF_LEN, RBUF and RSP_LEN, or RXBUF and types 1 to 15 registered ("start" of the vectors). -/
def pbuf (bs : List Byte) : State :=
  { State.reset with mem := Memory.putBytes [] 0x1000 bs, pbufLen := bs.length }
def rbuf (bs : List Byte) : State :=
  { State.reset with mem := Memory.putBytes [] 0x2000 bs, rspLen := bs.length }
def rxbuf (bs : List Byte) : State :=
  { State.reset with mem := Memory.putBytes [] 0x4000 bs, hen := 0xFFFE#256 }
/-- The same in the configuration with the other policy. -/
def rxbufWf (bs : List Byte) : State :=
  { State.resetOf Config.referenceWholeFrame with mem := Memory.putBytes [] 0x4000 bs, hen := 0xFFFE#256 }

/-- The W1 frame, with the parity byte 95_test_vectors.md chooses. -/
def w1 : List Byte := exampleFrame 0xAD#8
def w1With (k : Nat) (v : Byte) : List Byte := w1.set k v

/-- A dispatch in ACCUMULATE (V-R1) and in WHOLE_FRAME (V-RW1); two frames in one chunk (V-R4). -/
def held : State := after (.feed 5) (rxbuf [0x13#8, 0xAA#8, 0x03#8, 0x07#8, 0x55#8])
def heldWf : State := after (.feed 4) (rxbufWf [0xAA#8, 0x03#8, 0x07#8, 0x55#8])
def heldTwo : State :=
  after (.feed 8) (rxbuf [0xAA#8, 0x03#8, 0x07#8, 0x55#8, 0xAA#8, 0x05#8, 0x09#8, 0x55#8])

/-- A queue that holds a frame. -/
def queued (bs : List Byte) : State := after .push (pbuf bs)

/-! ## WellFormed: each check refuses an ill-formed term -/

theorem test_operand_n_too_large : (Instr.feed 65536).wellFormed = false := by decide
theorem test_operand_b_too_large : (Instr.pcalcByte 256 300).wellFormed = false := by decide
theorem test_operand_pidx_too_large : (Instr.psetBit 5 65536).wellFormed = false := by decide
theorem test_operands_at_their_ends : (Instr.pchkBit 255 65535).wellFormed = true := by decide
theorem test_reference_is_an_sfsr :
    Config.reference.wellFormed = true ∧ Config.referenceWholeFrame.wellFormed = true := by decide
theorem test_small_accumulator_refused : { Config.reference with accCap := 3 }.wellFormed = false := by decide
theorem test_deep_queue_refused : { Config.reference with qDepth := 65536 }.wellFormed = false := by decide
theorem test_equal_sentinels_refused : { Config.reference with busyByte := 0xC3#8 }.wellFormed = false := by decide
theorem test_header_as_sentinel_refused : { Config.reference with pollByte := 0xAA#8 }.wellFormed = false := by decide
theorem test_type_as_sentinel_refused : { Config.reference with readyByte := 0x05#8 }.wellFormed = false := by decide
theorem test_base_not_aligned_refused : { Config.reference with base := 0x40010004 }.wellFormed = false := by decide
theorem test_memory_form :
    Memory.wf [(4, 1#8), (5, 2#8)] = true ∧ Memory.wf [(5, 1#8), (4, 2#8)] = false ∧ Memory.wf [(4, 0#8)] = false := by decide

/-! ## Decode: a word written out from 30_encoding.md R100 and R104 for every command (words of 95_test_vectors.md) -/

theorem test_decode_feed : decode 0x10000005#32 = .ok (.feed 5) := by rfl
theorem test_decode_ack : decode 0x11000000#32 = .ok .ack := by rfl
theorem test_decode_push_ignores_fields : decode 0x20FFFFFF#32 = .ok .push := by rfl
theorem test_decode_pop : decode 0x21000041#32 = .ok (.pop 65) := by rfl
theorem test_decode_count : decode 0x22000000#32 = .ok .count := by rfl
theorem test_decode_cstatus : decode 0x30000004#32 = .ok (.cstatus 4) := by rfl
theorem test_decode_prepare : decode 0x315A0010#32 = .ok (.prepare 0x5A#8 16) := by rfl
theorem test_decode_prepare_rsp : decode 0x32A50010#32 = .ok (.prepareRsp 0xA5#8 16) := by rfl
theorem test_decode_valreq : decode 0x40030005#32 = .ok (.valreq 0x03#8 5) := by rfl
theorem test_decode_valrsp : decode 0x41040009#32 = .ok (.valrsp 0x04#8 9) := by rfl
theorem test_decode_pcalc_byte : decode 0x50050006#32 = .ok (.pcalcByte 5 6) := by rfl
theorem test_decode_pchk_byte : decode 0x51050006#32 = .ok (.pchkByte 5 6) := by rfl
theorem test_decode_pset_byte : decode 0x52020003#32 = .ok (.psetByte 2 3) := by rfl
theorem test_decode_pcalc_bit : decode 0x54050006#32 = .ok (.pcalcBit 5 6) := by rfl
theorem test_decode_pchk_bit : decode 0x55050006#32 = .ok (.pchkBit 5 6) := by rfl
theorem test_decode_pset_bit : decode 0x56050006#32 = .ok (.psetBit 5 6) := by rfl
theorem test_decode_pcalc_none : decode 0x58000000#32 = .ok .pcalcNone := by rfl
theorem test_decode_pchk_none_ignores_fields : decode 0x59FFFFFF#32 = .ok .pchkNone := by rfl
theorem test_decode_pset_none : decode 0x5A000000#32 = .ok .psetNone := by rfl
theorem test_decode_get16 : decode 0x60000003#32 = .ok (.get16 3) := by rfl
theorem test_decode_get32 : decode 0x61000002#32 = .ok (.get32 2) := by rfl
theorem test_decode_put16 : decode 0x62000003#32 = .ok (.put16 3) := by rfl
theorem test_decode_put32 : decode 0x63000004#32 = .ok (.put32 4) := by rfl
theorem test_decode_illegal : decode 0x53000000#32 = .error (.illegalOp 0x53#8) := by rfl
theorem test_encode_prepare_rsp : encode (.prepareRsp 0xA5#8 16) = 0x32A50010#32 := by decide
theorem test_table_word : decodeTableWord 32 0x61000002 = some (.get32 2) := by rfl

/-- The bytes of W1 as the source gives them, and the offsets of its type and frameId (00_scope.md R17; 30_encoding.md R91). -/
theorem test_example_frame : w1 = [0xAB#8, 0x04#8, 0xAA#8, 0x00#8, 0x03#8, 0x00#8, 0xAD#8, 0x54#8] ∧
    w1.getD typeIndex 0#8 = 0x04#8 ∧ w1.getD frameIdIndex 0#8 = 0xAA#8 := by decide

/-! ## Commands: at most two tests each -/

/-- V-R1. -/
theorem test_feed_discards_garbage_and_dispatches :
    seen (exec (.feed 5) (rxbuf [0x13#8, 0xAA#8, 0x03#8, 0x07#8, 0x55#8]))
      (fun t => (ended t, t.phase, t.accLen, t.feedPos, t.dspType, t.dspLen)) =
      some ((.ok, 1#32), .dispatch, 4, 5, 3#8, 4) := by decide

/-- V-R6: a 0xAA in the garbage swallows the frame. -/
theorem test_feed_garbage_with_header_swallows_the_frame :
    seen (exec (.feed 6) (rxbuf [0xAA#8, 0x13#8, 0xAA#8, 0x03#8, 0x07#8, 0x55#8]))
      (fun t => (ended t, t.phase, t.accLen, t.bytesOf .acc 6)) =
      some ((.ok, 0#32), .idle, 0, [0xAA#8, 0x13#8, 0xAA#8, 0x03#8, 0x07#8, 0x55#8]) := by decide

/-- V-RW6: two frames become one. -/
theorem test_feed_whole_frame_takes_the_chunk :
    seen (exec (.feed 8) (rxbufWf [0xAA#8, 0x03#8, 0x07#8, 0x55#8, 0xAA#8, 0x05#8, 0x09#8, 0x55#8]))
      (fun t => (ended t, t.dspType, t.dspLen, t.accLen)) = some ((.ok, 1#32), 3#8, 8, 0) := by decide

/-- V-R4b. -/
theorem test_ack_resumes_the_chunk :
    seen (exec .ack heldTwo) (fun t => (ended t, t.phase, t.dspType, t.feedPos)) =
      some ((.ok, 1#32), .dispatch, 5#8, 8) := by decide

/-- V-R14. -/
theorem test_ack_refused_when_idle :
    seen (exec .ack State.reset) (fun t => (t.statusWord, t.result)) = some (0x100#32, 0#32) := by decide

/-- W1 step 2. -/
theorem test_push_appends : seen (exec .push (pbuf w1)) (fun t => (ended t, t.qCount, t.entries)) =
    some ((.ok, 1#32), 1, [w1]) := by decide

/-- V-Q1. -/
theorem test_push_empty_is_arg : seen (exec .push State.reset) ended = some (.arg, 0#32) := by decide

/-- V-Q6b. -/
theorem test_pop_takes_the_frame : seen (exec (.pop 8) (queued w1)) (fun t => (ended t, t.rspLen, t.qCount, t.bytesOf .rbuf 8)) =
    some ((.ok, 8#32), 8, 0, w1) := by decide

/-- V-Q6. -/
theorem test_pop_small_destination_is_range :
    seen (exec (.pop 7) { queued w1 with rspLen := 3 }) (fun t => (ended t, t.rspLen, t.qCount)) =
      some ((.range, 0#32), 0, 1) := by decide

/-- V-Q12. -/
theorem test_count : seen (exec .count (queued w1)) ended = some (.ok, 1#32) := by decide

/-- V-H2 and V-H2b. -/
theorem test_cstatus : seen (exec (.cstatus 0) State.reset) ended = some (.ok, 0x5A#32) ∧
    seen (exec (.cstatus 5) State.reset) ended = some (.ok, 0xA5#32) := by decide

/-- V-H4. -/
theorem test_prepare_busy : seen (exec (.prepare 0x5A#8 16) State.reset) (fun t => (ended t, t.txLen, t.bytesOf .txbuf 17)) =
    some ((.ok, 1#32), 16, List.replicate 16 0x5A#8 ++ [0x00#8]) := by decide

/-- V-H8: a transaction longer than TXBUF. -/
theorem test_prepare_too_long : seen (exec (.prepare 0xA5#8 65) State.reset) (fun t => (ended t, t.txLen)) =
    some ((.ok, 3#32), 64) := by decide

/-- V-H10. -/
theorem test_prepare_rsp_pads : seen (exec (.prepareRsp 0xA5#8 16) (rbuf w1)) (fun t => (ended t, t.bytesOf .txbuf 16, t.rspLen)) =
    some ((.ok, 0x102#32), w1 ++ List.replicate 8 0xA5#8, 8) := by decide

/-- V-H12. -/
theorem test_prepare_rsp_too_long :
    seen (exec (.prepareRsp 0xA5#8 7) (rbuf w1)) (fun t => (ended t, t.bytesOf .txbuf 8)) =
      some ((.ok, 3#32), List.replicate 7 0xA5#8 ++ [0x00#8]) := by decide

/-- V-T1g and V-T1h. -/
theorem test_valreq : seen (exec (.valreq 3#8 4) (pbuf [0xAA#8, 0x03#8, 0x07#8, 0x55#8])) ended = some (.ok, 0#32) ∧
    seen (exec (.valreq 2#8 4) (pbuf [0xAA#8, 0x03#8, 0x07#8, 0x55#8])) ended = some (.frame, 0#32) := by decide

/-- V-T1a, V-T1b and V-T1d. -/
theorem test_valrsp : seen (exec (.valrsp 4#8 8) (pbuf w1)) ended = some (.ok, 0#32) ∧
    seen (exec (.valrsp 4#8 7) (pbuf w1)) ended = some (.frame, 0#32) ∧
    seen (exec (.valrsp 4#8 9) (pbuf w1)) ended = some (.arg, 0#32) := by decide

/-- V-T2a and V-T3b. -/
theorem test_pcalc_byte : seen (exec (.pcalcByte 5 6) (pbuf w1)) ended = some (.ok, 0xAD#32) ∧
    seen (exec (.pcalcByte 5 7) (pbuf w1)) ended = some (.arg, 0#32) := by decide

/-- V-T2b and V-T2c. -/
theorem test_pchk_byte : seen (exec (.pchkByte 5 6) (pbuf w1)) ended = some (.ok, 0xAD#32) ∧
    seen (exec (.pchkByte 5 6) (pbuf (w1With 6 0xAC#8))) ended = some (.parity, 0#32) := by decide

/-- V-T2d. -/
theorem test_pset_byte : seen (exec (.psetByte 5 6) (pbuf (w1With 6 0xAC#8))) (fun t => (ended t, t.bytesOf .pbuf 8)) =
    some ((.ok, 0xAD#32), w1) := by decide

/-- V-T4a. -/
theorem test_pcalc_bit : seen (exec (.pcalcBit 5 6) (pbuf w1)) ended = some (.ok, 1#32) := by decide

/-- V-T4d and V-T4e. -/
theorem test_pchk_bit : seen (exec (.pchkBit 5 6) (pbuf (w1With 6 0xFE#8))) ended = some (.parity, 0#32) ∧
    seen (exec (.pchkBit 5 6) (pbuf w1)) ended = some (.ok, 1#32) := by decide

/-- V-T4b. -/
theorem test_pset_bit : seen (exec (.psetBit 5 6) (pbuf (w1With 6 0x80#8))) (fun t => (ended t, t.byteAt .pbuf 6)) =
    some ((.ok, 1#32), 0x81#8) := by decide

/-- V-T5a, V-T5b and V-T5c. -/
theorem test_none_scheme : seen (exec .pcalcNone State.reset) ended = some (.ok, 0#32) ∧
    seen (exec .pchkNone (pbuf w1)) ended = some (.ok, 0#32) ∧
    seen (exec .psetNone (pbuf w1)) (fun t => (ended t, t.bytesOf .pbuf 8)) = some ((.ok, 0#32), w1) := by decide

/-- V-T6b and V-T6d. -/
theorem test_get16 : seen (exec (.get16 4) (pbuf w1)) ended = some (.ok, 0x300#32) ∧
    seen (exec (.get16 7) (pbuf w1)) ended = some (.arg, 0#32) := by decide

/-- V-T6e. -/
theorem test_get32 : seen (exec (.get32 2) (pbuf w1)) ended = some (.ok, 0xAA000300#32) := by decide

/-- V-T7a. -/
theorem test_put16 : seen (exec (.put16 3) { pbuf w1 with data := 0x1234ABCD#32 }) (fun t => (ended t, t.bytesOf .pbuf 8)) =
    some ((.ok, 0#32), [0xAB#8, 0x04#8, 0xAA#8, 0xAB#8, 0xCD#8, 0x00#8, 0xAD#8, 0x54#8]) := by decide

/-- V-T8a. -/
theorem test_put32 : seen (exec (.put32 2) { pbuf w1 with data := 0x01020304#32 }) (fun t => t.bytesOf .pbuf 8) =
    some [0xAB#8, 0x04#8, 0x01#8, 0x02#8, 0x03#8, 0x04#8, 0xAD#8, 0x54#8] := by decide

/-! ## The port -/

/-- V-E6: the OP check comes before the phase check. -/
theorem test_illegal_op_in_dispatch :
    seen (step (on held (commandAccess Config.reference 0x12000000#32))) State.statusWord = some 0x210#32 := by decide

/-- V-M1a and V-M1g: bus errors. -/
theorem test_bus_errors : seen (step (on State.reset (r8 Config.reference 0x0000))) State.response = some .busError ∧
    seen (step (on State.reset (r8 Config.reference 0x1040))) State.response = some .busError := by decide

/-- V-M1l: CFG0 and CFG2. -/
theorem test_configuration_words :
    seen (step (on State.reset (r32 Config.reference 0x060))) State.response = some (.word 0x00040020#32) ∧
    seen (step (on State.reset (r32 Config.reference 0x068))) State.response = some (.word 0x00C35AA5#32) := by decide

/-- V-M2a and V-M3: WARL, and the handler bits of unknown types. -/
theorem test_legal_values_are_stored :
    seen (step (on State.reset (w32 Config.reference 0x014 100#32))) State.pbufLen = some 64 ∧
    seen (step (on State.reset (w32 Config.reference 0x040 0xFFFFFFFF#32))) (fun t => t.henWord 0) = some 0xFFFE#32 := by
  decide

/-- V-E4b: only SEQERR is cleared. -/
theorem test_write_one_to_clear :
    seen (step (on { State.reset with seqErr := true, illCmd := true } (w32 Config.reference 0x008 0x100#32)))
      State.statusWord = some 0x200#32 := by decide

/-- V-S1: the reset event during a dispatch. -/
theorem test_reset_event : stepped (on held .reset) = State.reset := by decide

/-! ## Witnesses: for every obligation with hypotheses, values that meet them -/

/-- The parts of the invariant, as one test. -/
def invOk (s : State) : Bool :=
  s.cfg.wellFormed && s.mem.wf && decide s.MemInside && decide s.AccBounded && decide s.AccHeader && decide s.AccNoTail &&
  decide s.AccClosed && decide s.FrameLatched && decide s.QueueBounded && decide s.CursorsBounded &&
  decide s.LengthsBounded && decide s.HenKnown

theorem inv_of_ok {s : State} (h : invOk s = true) : s.Inv := by
  simp only [invOk, Bool.and_eq_true, decide_eq_true_eq] at h
  obtain ⟨⟨⟨⟨⟨⟨⟨⟨⟨⟨⟨h1, h2⟩, h3⟩, h4⟩, h5⟩, h6⟩, h7⟩, h8⟩, h9⟩, h10⟩, h11⟩, h12⟩ := h
  exact ⟨h1, h2, h3, h4, h5, h6, h7, h8, h9, h10, h11, h12⟩

/-- The bus address of an offset in the reference configuration. -/
def at_ (off : Nat) : Nat := Config.reference.base + off

/-- Half a frame in the accumulator, idle (V-R2). -/
def half : State := after (.feed 2) (rxbuf [0xAA#8, 0x03#8])
/-- The queue of `queued w1`, one slot further round the ring, with other bytes in the free slots. -/
def queuedElsewhere : State :=
  { queued w1 with qHead := 1, slots := [Slot.cleared 32, (Slot.cleared 32).store w1, Slot.cleared 32,
      { len := 3, data := List.replicate 32 0x77#8 }] }
def full : State := { queued w1 with qCount := 4, slots := List.replicate 4 ((Slot.cleared 32).store w1) }

theorem witness_inv_reset : State.reset.Inv := inv_of_ok (by decide)
theorem witness_inv_held : held.Inv ∧ held.phase = .dispatch ∧ held.cfg.policy = .accumulate :=
  ⟨inv_of_ok (by decide), by decide⟩
theorem witness_inv_heldTwo : heldTwo.Inv ∧ heldTwo.phase = .dispatch ∧ heldTwo.cfg.policy = .accumulate ∧
    heldTwo.feedPos < heldTwo.feedEnd := ⟨inv_of_ok (by decide), by decide⟩
theorem witness_inv_heldWf : heldWf.Inv ∧ heldWf.phase = .dispatch ∧ heldWf.cfg.policy = .wholeFrame :=
  ⟨inv_of_ok (by decide), by decide⟩
theorem witness_inv_half : half.Inv ∧ half.phase = .idle ∧ half.accLen = 2 := ⟨inv_of_ok (by decide), by decide⟩
theorem witness_inv_queued : (queued w1).Inv ∧ (queued w1).entries = [w1] := ⟨inv_of_ok (by decide), by decide⟩
theorem witness_inv_queuedElsewhere : queuedElsewhere.Inv := inv_of_ok (by decide)
theorem witness_inv_full : full.Inv ∧ full.qCount = full.cfg.qDepth := ⟨inv_of_ok (by decide), by decide⟩

theorem witness_DecodeOfEncodeIsTheCommand :
    (Instr.prepareRsp 0xFF#8 65535).wellFormed = true ∧ (Instr.pchkBit 255 65535).wellFormed = true ∧
    (Instr.feed 0).wellFormed = true := by decide
theorem witness_EncodeOfDecodeKeepsTheUsedBits : decode 0x20FFFFFF#32 = .ok .push := by rfl
/-- The illegal OP values next to legal ones. -/
theorem witness_IllegalOpOnlySetsIllcmd : State.reset.cfg.wellFormed = true ∧
    (∀ w : Word, (on State.reset (.write32 (at_ 0) w)).pending = .write32 State.reset.cfg.base w :: []) ∧
    [0x0F000000#32, 0x12000000#32, 0x53000000#32, 0x64000000#32, 0xFF000000#32].map
      (fun w => (w.extractLsb' 24 8).toNat) = [0x0F, 0x12, 0x53, 0x64, 0xFF] := ⟨by decide, fun _ => rfl, by decide⟩
theorem witness_StepRunsTheDecodedCommand :
    State.reset.cfg.wellFormed = true ∧
    (on State.reset (.write32 (at_ 0) 0x22000000#32)).pending = .write32 State.reset.cfg.base 0x22000000#32 :: [] ∧
    decode 0x22000000#32 = .ok .count ∧ decodeTableWord 32 0x22000000 = some .count := ⟨by decide, rfl, rfl, rfl⟩
theorem witness_NoAccessNoChange : State.reset.cfg.wellFormed = true ∧ State.reset.pending = [] := by decide
theorem witness_ResetEventGivesTheResetValues :
    held.cfg.wellFormed = true ∧ (on held .reset).pending = .reset :: [] := by decide
theorem witness_OnlyAnSfsrRuns :
    (match step { State.reset with cfg := { Config.reference with accCap := 3 } } with
     | .refused .invalidConfiguration => true | _ => false) = true ∧
    (match step { State.reset with cfg := { Config.reference with accCap := 4 } } with
     | .next _ => true | _ => false) = true := by decide
/-- The last address inside the window, and the nearest ones outside. -/
theorem witness_WellAddressedRunsNeverStop :
    (on State.reset (.read .w8 (at_ 0x7FFF))).wellAddressed = true ∧
    (at_ 0x8000 < State.reset.cfg.base ∨ State.reset.cfg.base + 0x8000 ≤ at_ 0x8000) ∧
    (State.reset.cfg.base - 1 < State.reset.cfg.base) ∧
    (on State.reset (.read .w8 (at_ 0x8000))).pending = .read .w8 (at_ 0x8000) :: [] := by decide
theorem witness_InvariantHoldsAtReset :
    Config.reference.wellFormed = true ∧ Config.referenceWholeFrame.wellFormed = true := by decide
theorem witness_EveryStepKeepsTheInvariant :
    (on heldTwo (commandAccess heldTwo.cfg (encode .ack))).Inv ∧
    step (on heldTwo (commandAccess heldTwo.cfg (encode .ack))) =
      .next (stepped (on heldTwo (commandAccess heldTwo.cfg (encode .ack)))) :=
  ⟨inv_of_ok (by decide), step_stepped (by decide)⟩
theorem witness_NoStepChangesAParameter : step State.reset = .next (stepped State.reset) :=
  step_stepped (by decide)
theorem witness_EveryStepKeepsTheMemoryCanonical :
    (on State.reset (w8 Config.reference 0x1000 0xAA#8)).mem.wf = true ∧
    step (on State.reset (w8 Config.reference 0x1000 0xAA#8)) =
      .next (stepped (on State.reset (w8 Config.reference 0x1000 0xAA#8))) := ⟨by decide, step_stepped (by decide)⟩
/-- FEED from IDLE to DISPATCH; ACK, and reset, from DISPATCH to IDLE. -/
theorem witness_OnlyFeedAndAckMoveThePhase :
    ((rxbuf [0xAA#8, 0x03#8, 0x07#8, 0x55#8]).phase = .idle ∧
      (stepped (on (rxbuf [0xAA#8, 0x03#8, 0x07#8, 0x55#8]) (cmd Config.reference (.feed 4)))).phase = .dispatch) ∧
    (held.phase = .dispatch ∧ (stepped (on held (cmd Config.reference .ack))).phase = .idle ∧
      (stepped (on held .reset)).phase = .idle) := by decide
theorem witness_ErrorsZeroTheResult :
    (acceptedIn (.pop 65) State.reset.phase = true ∧ (after (.pop 65) State.reset).rc ≠ .ok) ∧
    (acceptedIn .ack State.reset.phase = false ∧ acceptedIn (.feed 1) held.phase = false) := by decide
theorem witness_WrongPhaseOnlySetsSeqerr : held.phase = .dispatch ∧ State.reset.phase = .idle := by decide
theorem witness_RefusalFlagsAreSticky :
    ({ State.reset with seqErr := true, illCmd := true }.seqErr = true ∧
      (stepped (on { State.reset with seqErr := true, illCmd := true } (w32 Config.reference 8 0x300#32))).seqErr = false ∧
      (stepped (on { State.reset with seqErr := true, illCmd := true } (w32 Config.reference 8 0x300#32))).illCmd = false) ∧
    (stepped (on { State.reset with seqErr := true } .reset)).seqErr = false := by decide
theorem witness_NoCommandWritesTheHostRegisters : acceptedIn (.feed 65535) State.reset.phase = true := by decide
/-- One command for each clause. -/
theorem witness_EachBufferHasItsWriters :
    (pbuf w1).Inv ∧ (after (.psetByte 1 6) (pbuf w1)).byteAt .pbuf 6 ≠ (pbuf w1).byteAt .pbuf 6 ∧
    (after (.pop 8) (queued w1)).byteAt .rbuf 0 ≠ (queued w1).byteAt .rbuf 0 ∧
    (after (.prepare 0xA5#8 64) State.reset).byteAt .txbuf 63 ≠ State.reset.byteAt .txbuf 63 ∧
    half.accLen ≠ (rxbuf [0xAA#8, 0x03#8]).accLen :=
  ⟨inv_of_ok (by decide), by decide⟩
/-- V-R12: the least chunk that does not fit. -/
theorem witness_FeedBeyondRxbufIsArg : State.reset.phase = .idle ∧
    { State.reset with rxOff := 60 }.cfg.rxSize < { State.reset with rxOff := 60 }.rxOff + 5 := by decide
/-- V-R12b: the largest chunk that fits; and a chunk that is dispatched, and one that is not. -/
theorem witness_FeedRunsTheByteAutomaton :
    ({ State.reset with rxOff := 60 }.Inv ∧ { State.reset with rxOff := 60 }.rxOff + 4 ≤ Config.reference.rxSize) ∧
    ((rxbuf [0xAA#8, 0x03#8, 0x07#8, 0x55#8]).Inv ∧
      (absRun 32 (rxbuf [0xAA#8, 0x03#8, 0x07#8, 0x55#8]).routable [] [0xAA#8, 0x03#8, 0x07#8, 0x55#8]).1 = .suspend ∧
      (absRun 32 (rxbuf [0xAA#8, 0x03#8, 0x07#8, 0x55#8]).routable [] [0xAA#8, 0x03#8, 0x07#8]).1 = .cont) :=
  ⟨⟨inv_of_ok (by decide), by decide⟩, inv_of_ok (by decide), by decide⟩
theorem witness_AckResumesTheByteAutomaton : heldTwo.Inv ∧ heldTwo.phase = .dispatch ∧ heldTwo.cfg.policy = .accumulate :=
  ⟨inv_of_ok (by decide), by decide⟩
theorem witness_WholeFrameFeedTakesOneFrame :
    (rxbufWf [0xAA#8, 0x03#8, 0x07#8, 0x55#8]).phase = .idle ∧
    (rxbufWf [0xAA#8, 0x03#8, 0x07#8, 0x55#8]).cfg.policy = .wholeFrame ∧
    (rxbufWf [0xAA#8, 0x03#8, 0x07#8, 0x55#8]).rxOff + 64 ≤ Config.referenceWholeFrame.rxSize ∧
    (after (.feed 4) (rxbufWf [0xAA#8, 0x03#8, 0x07#8, 0x55#8])).dspLen = 4 ∧
    (after (.feed 3) (rxbufWf [0xAA#8, 0x03#8, 0x55#8])).phase = .idle := by decide
theorem witness_WholeFrameAckEndsTheDispatch : heldWf.phase = .dispatch ∧ heldWf.cfg.policy = .wholeFrame := by decide
/-- A cut inside a frame, between two frames, and at either end. -/
theorem witness_ChunkBoundariesDoNotMatter :
    (rxbuf [0xAA#8, 0x03#8, 0x07#8, 0x55#8, 0xAA#8, 0x05#8, 0x09#8, 0x55#8]).Inv ∧
    (∀ n ∈ [0, 2, 4, 8], (rxbuf []).rxOff + (n + (8 - n)) ≤ Config.reference.rxSize) ∧
    (feedAcked 8 (rxbuf [0xAA#8, 0x03#8, 0x07#8, 0x55#8, 0xAA#8, 0x05#8, 0x09#8, 0x55#8])).1 =
      [(3#8, [0xAA#8, 0x03#8, 0x07#8, 0x55#8]), (5#8, [0xAA#8, 0x05#8, 0x09#8, 0x55#8])] :=
  ⟨inv_of_ok (by decide), by decide⟩
/-- V-R3, with a routable type and with one that is not. -/
theorem witness_GarbageThenFrameDispatchesTheFrame : ∀ ty ∈ [0x03#8, 0x13#8],
    invOk (rxbuf [0x13#8, 0x00#8, 0xFF#8, 0xAA#8, ty, 0x07#8, 0x55#8]) = true ∧
    0xAA#8 ∉ [0x13#8, 0x00#8, 0xFF#8] ∧
    (∀ k, k < 3 → 3 ≤ k → [0xAA#8, ty, 0x07#8, 0x55#8].getD k 0#8 ≠ 0x55#8) ∧
    (rxbuf [0x13#8, 0x00#8, 0xFF#8, 0xAA#8, ty, 0x07#8, 0x55#8]).chunk 7 =
      [0x13#8, 0x00#8, 0xFF#8] ++ [0xAA#8, ty, 0x07#8, 0x55#8] ∧
    (rxbuf [0x13#8, 0x00#8, 0xFF#8, 0xAA#8, ty, 0x07#8, 0x55#8]).routable ty = decide (ty = 0x03#8) := by decide
/-- V-R7: a 0x55 at index 3, the least that closes a frame. -/
theorem witness_AnInnerTailClosesTheFrameEarly :
    (rxbuf [0xAA#8, 0x04#8, 0x01#8, 0x55#8, 0x22#8, 0x55#8]).Inv ∧
    (∀ j, j < 3 → 3 ≤ j → [0xAA#8, 0x04#8, 0x01#8, 0x55#8, 0x22#8, 0x55#8].getD j 0#8 ≠ 0x55#8) ∧
    (rxbuf [0xAA#8, 0x04#8, 0x01#8, 0x55#8, 0x22#8, 0x55#8]).routable 0x04#8 = true ∧
    (rxbuf [0xAA#8, 0x04#8, 0x01#8, 0x55#8, 0x22#8, 0x55#8]).chunk 6 =
      [0xAA#8, 0x04#8, 0x01#8, 0x55#8, 0x22#8, 0x55#8] := ⟨inv_of_ok (by decide), by decide⟩
/-- V-R9a: a full accumulator, n = ACC_CAP; and n = ACC_CAP - 1. -/
theorem witness_OverflowResetsWithoutOverrun :
    (rxbuf [0xAA#8]).Inv ∧ ∀ n ∈ [1, 31, 32], n ≤ (rxbuf [0xAA#8]).cfg.accCap ∧
      ((rxbuf [0xAA#8]).chunk n).getD 0 0#8 = 0xAA#8 ∧
      (∀ k, k < n → 3 ≤ k → ((rxbuf [0xAA#8]).chunk n).getD k 0#8 ≠ 0x55#8) ∧
      (after (.feed n) (rxbuf [0xAA#8])).accLen = (if n = 32 then 0 else n) := ⟨inv_of_ok (by decide), by decide⟩
/-- By FEED and by ACK, in ACCUMULATE; by FEED in WHOLE_FRAME. -/
theorem witness_EveryDispatchedFrameIsWellFormed :
    (heldTwo.Inv ∧ (after .ack heldTwo).phase = .dispatch) ∧
    ((rxbufWf [0xAA#8, 0x03#8, 0x07#8, 0x55#8]).Inv ∧ heldWf.phase = .dispatch) :=
  ⟨⟨inv_of_ok (by decide), by decide⟩, inv_of_ok (by decide), by decide⟩
theorem witness_TailScanFindsOnlyTheLastByte :
    half.Inv ∧ half.phase = .idle ∧ (State.reset.appendAcc 0x13#8).byteAt .acc 0 ≠ 0xAA#8 :=
  ⟨inv_of_ok (by decide), by decide⟩
/-- Between frames and inside a frame. -/
theorem witness_HandshakeBytesBetweenFramesAreDropped :
    ((rxbuf [0xC3#8, 0xA5#8, 0x5A#8]).Inv ∧
      (∀ b ∈ (rxbuf [0xC3#8, 0xA5#8, 0x5A#8]).chunk 3, b = 0xC3#8 ∨ b = 0xA5#8 ∨ b = 0x5A#8) ∧
      (rxbuf [0xC3#8, 0xA5#8, 0x5A#8]).accLen = 0) ∧
    ({ half with rxOff := 2, mem := half.mem.put 0x4002 0xC3#8 }.Inv ∧
      { half with rxOff := 2, mem := half.mem.put 0x4002 0xC3#8 }.chunk 1 = [0xC3#8] ∧ half.accLen + 1 < half.cfg.accCap) :=
  ⟨⟨inv_of_ok (by decide), by decide⟩, inv_of_ok (by decide), by decide⟩
/-- Empty PBUF; a full queue; a frame one byte too long; a frame of exactly Q_FRAME_MAX bytes. -/
theorem witness_PushAppendsTheFrameInPbuf :
    (State.reset.QueueBounded ∧ State.reset.pbufLen = 0) ∧
    (full.QueueBounded ∧ full.pbufLen ≠ 0 ∧ full.qCount = full.cfg.qDepth) ∧
    ({ State.reset with pbufLen := 33 }.QueueBounded ∧ State.reset.qCount ≠ State.reset.cfg.qDepth ∧
      State.reset.cfg.qFrameMax < { State.reset with pbufLen := 33 }.pbufLen) ∧
    ({ State.reset with pbufLen := 32 }.QueueBounded ∧
      { State.reset with pbufLen := 32 }.pbufLen ≤ State.reset.cfg.qFrameMax) := by decide
/-- A destination larger than RBUF; an empty queue; a destination one byte too small; one of exactly the frame's length. -/
theorem witness_PopHandsOutTheOldestFrame :
    ((queued w1).Inv ∧ (queued w1).phase = .idle) ∧ (queued w1).cfg.rbufSize < 65 ∧
    (State.reset.Inv ∧ State.reset.phase = .idle ∧ 64 ≤ State.reset.cfg.rbufSize ∧ State.reset.entries = []) ∧
    ((queued w1).entries = w1 :: [] ∧ 7 < w1.length) ∧ w1.length ≤ 8 :=
  ⟨⟨inv_of_ok (by decide), by decide⟩, by decide, ⟨inv_of_ok (by decide), by decide⟩, by decide⟩
/-- Two steps with a PUSH and a POP. -/
theorem witness_TheQueueIsFirstInFirstOut :
    { pbuf w1 with pending := [cmd Config.reference .push, cmd Config.reference (.pop 8)] }.Inv ∧
    Access.reset ∉ [cmd Config.reference .push, cmd Config.reference (.pop 8)] ∧
    (queueHistory 2 { pbuf w1 with pending := [cmd Config.reference .push, cmd Config.reference (.pop 8)] }).map
      (fun h => (h.1, h.2.1, h.2.2.entries)) = some ([w1], [w1], []) := ⟨inv_of_ok (by decide), by decide⟩
theorem witness_OnlyTheEntrySequenceIsObservable :
    (on (queued w1) (cmd Config.reference (.pop 8))).Inv ∧ (on queuedElsewhere (cmd Config.reference (.pop 8))).Inv ∧
    SameButRing (on (queued w1) (cmd Config.reference (.pop 8))) (on queuedElsewhere (cmd Config.reference (.pop 8))) ∧
    (queued w1).qHead ≠ queuedElsewhere.qHead :=
  ⟨inv_of_ok (by decide), inv_of_ok (by decide), ⟨by decide, by decide⟩, by decide⟩
theorem witness_PrepareFillsWithTheStatusByte : State.reset.phase = .idle := rfl
/-- No response; then with one, at N = L - 1 (too short), N = L and N = TX_SIZE. -/
theorem witness_PrepareRspSendsTheResponseWithPadding :
    (State.reset.phase = .idle ∧ State.reset.rspLen = 0) ∧ ((rbuf w1).phase = .idle ∧ 0 < (rbuf w1).rspLen) ∧
    7 < (rbuf w1).rspLen ∧
    (∀ n ∈ [8, 64], ¬ (n = 0 ∨ (rbuf w1).cfg.txSize < n ∨
      (0x5A#8 ≠ (rbuf w1).cfg.readyByte ∧ 0x5A#8 ≠ (rbuf w1).cfg.busyByte) ∨ n < (rbuf w1).rspLen)) := by decide
theorem witness_PollByteAsStatusIsUnrecognized :
    State.reset.cfg.wellFormed = true ∧ State.reset.phase = .idle := by decide
/-- Operands at the ends of ParityArgsOK (V-T3e, V-T3f), and just outside. -/
theorem witness_ByteParityCommandsUseTheXor :
    (1 ≤ 1 ∧ 1 < 2 ∧ 2 + 1 < (pbuf [0xAA#8, 0x03#8, 0x07#8, 0x55#8]).pbufLen) ∧
    (0x03#8 = (List.range 1).foldl
      (fun y k => y ^^^ (pbuf [0xAA#8, 0x03#8, 0x07#8, 0x55#8]).byteAt .pbuf (k + 1)) 0#8) ∧
    ¬ (1 ≤ 1 ∧ 1 < 3 ∧ 3 + 1 < (pbuf [0xAA#8, 0x03#8, 0x07#8, 0x55#8]).pbufLen) ∧
    ¬ (1 ≤ 0 ∧ 0 < 2 ∧ 2 + 1 < (pbuf [0xAA#8, 0x03#8, 0x07#8, 0x55#8]).pbufLen) ∧
    ¬ (1 ≤ 2 ∧ 2 < 2 ∧ 2 + 1 < (pbuf [0xAA#8, 0x03#8, 0x07#8, 0x55#8]).pbufLen) := by decide
theorem witness_BitParityCommandsCountTheOnes :
    1 = (pbuf w1).coveredOnes 5 % 2 ∧ (1 ≤ 5 ∧ 5 < 6 ∧ 6 + 1 < (pbuf w1).pbufLen) ∧
    ¬ (1 ≤ 5 ∧ 5 < 7 ∧ 7 + 1 < (pbuf w1).pbufLen) := by decide
theorem witness_NoneParityCommandsAlwaysSucceed :
    Instr.pchkNone = .pcalcNone ∨ Instr.pchkNone = .pchkNone ∨ Instr.pchkNone = .psetNone := by decide
theorem witness_ParityCheckAfterSetSucceeds : 1 ≤ 5 ∧ 5 < 6 ∧ 6 + 1 < (pbuf w1).pbufLen := by decide
/-- A flip in the covered range (its last byte) and one in the parity byte, of bit 7 and of bit 0. -/
theorem witness_ByteParityCatchesEveryOneBitFlip : ∀ k j : Nat, (k = 5 ∧ j = 7) ∨ (k = 6 ∧ j = 0) →
    (1 ≤ 5 ∧ 5 < 6 ∧ 6 + 1 < (pbuf w1).pbufLen) ∧
    exec (.pchkByte 5 6) (pbuf w1) = .next (after (.pchkByte 5 6) (pbuf w1)) ∧
    (after (.pchkByte 5 6) (pbuf w1)).rc = .ok ∧ j < 8 ∧ ((1 ≤ k ∧ k ≤ 5) ∨ k = 6) ∧
    ((pbuf w1).putByte .pbuf k ((pbuf w1).byteAt .pbuf k ^^^ (1#8 <<< j))).byteAt .pbuf k =
      (pbuf w1).byteAt .pbuf k ^^^ (1#8 <<< j) ∧
    ∀ m, m ≠ k → ((pbuf w1).putByte .pbuf k ((pbuf w1).byteAt .pbuf k ^^^ (1#8 <<< j))).byteAt .pbuf m =
      (pbuf w1).byteAt .pbuf m := by
  intro k j h
  refine ⟨by decide, rfl, by decide, by omega, by omega, ?_, fun m hm => ?_⟩
  · simp [State.byteAt_putByte_same]
  · simp [State.byteAt_putByte_same, Ne.symm hm]
theorem witness_BitParityCountsFlips :
    (1 ≤ 5 ∧ 5 < 6 ∧ 6 + 1 < (pbuf w1).pbufLen) ∧ (pbuf (w1With 3 0x01#8)).pbufLen = (pbuf w1).pbufLen ∧
    coveredFlips (pbuf w1) (pbuf (w1With 3 0x01#8)) 5 = 1 := by decide
theorem witness_ParityChecksReadOnlyCoveredBytes :
    (pbuf (w1With 7 0x00#8)).pbufLen = (pbuf w1).pbufLen ∧
    (pbuf (w1With 7 0x00#8)).byteAt .pbuf 6 = (pbuf w1).byteAt .pbuf 6 ∧
    (∀ k, k < 6 → 1 ≤ k → (pbuf (w1With 7 0x00#8)).byteAt .pbuf k = (pbuf w1).byteAt .pbuf k) := by decide
/-- The last field that fits, and the first that does not, of each width. -/
theorem witness_GetReadsABigEndianField : 6 + 2 ≤ (pbuf w1).pbufLen ∧ ¬ 7 + 2 ≤ (pbuf w1).pbufLen ∧
    4 + 4 ≤ (pbuf w1).pbufLen ∧ ¬ 5 + 4 ≤ (pbuf w1).pbufLen ∧
    ∀ k, (fun k => ((pbuf w1).byteAt .pbuf (6 + k)).toNat) k = ((pbuf w1).byteAt .pbuf (6 + k)).toNat :=
  ⟨by decide, by decide, by decide, by decide, fun _ => rfl⟩
theorem witness_PutWritesABigEndianField : (pbuf w1).pbufLen < 7 + 2 ∧ (pbuf w1).pbufLen < 5 + 4 ∧
    6 + 2 ≤ (pbuf w1).pbufLen ∧ 4 + 4 ≤ (pbuf w1).pbufLen := by decide
theorem witness_GetAfterPutGivesTheData : 6 + 2 ≤ (pbuf w1).pbufLen ∧ 4 + 4 ≤ (pbuf w1).pbufLen := by decide
/-- V-M1: one rejected access for each clause, at the first offset beyond a region. -/
theorem witness_RejectedAccessesOnlyGetABusError :
    State.reset.cfg.wellFormed = true ∧ admitted Config.reference .w8 0x1040 = false ∧
    admitted Config.reference .w32 0x074 = false ∧ admitted Config.reference .w32 0x0FE = false ∧
    admitted Config.reference .w16 0x000 = false ∧ admitted Config.reference .w8 0x7FFF = false ∧
    (on State.reset (.write8 (at_ 0x1040) 1#8)).pending = .write8 (State.reset.cfg.base + 0x1040) 1#8 :: [] ∧
    (on State.reset (.write32 (at_ 0x074) 1#32)).pending = .write32 (State.reset.cfg.base + 0x074) 1#32 :: [] ∧
    (on State.reset (.write16 (at_ 0) 1#16)).pending = .write16 (State.reset.cfg.base + 0) 1#16 :: [] ∧
    (on State.reset (.read .w8 (at_ 0x7FFF))).pending = .read .w8 (State.reset.cfg.base + 0x7FFF) :: [] := by decide
theorem witness_ReadsHaveNoSideEffect :
    { held with pending := [.read .w8 (at_ 0x6001), .read .w8 (at_ 0x6001)] }.pending =
      .read .w8 (at_ 0x6001) :: .read .w8 (at_ 0x6001) :: [] ∧
    step { held with pending := [.read .w8 (at_ 0x6001), .read .w8 (at_ 0x6001)] } =
      .next (stepped { held with pending := [.read .w8 (at_ 0x6001), .read .w8 (at_ 0x6001)] }) :=
  ⟨by decide, step_stepped (by decide)⟩
theorem witness_RegisterReadsFollowTheMap :
    (on held (.read .w32 (at_ 0x034))).Inv ∧
    (on held (.read .w32 (at_ 0x034))).pending = .read .w32 (held.cfg.base + 0x034) :: [] :=
  ⟨inv_of_ok (by decide), by decide⟩
/-- HEN0 and HEN7. -/
theorem witness_HandlerTableReadsAndWrites : State.reset.cfg.wellFormed = true ∧ ∀ k ∈ [0, 7], k < 8 ∧
    (on State.reset (.read .w32 (at_ (0x040 + 4 * k)))).pending = .read .w32 (State.reset.cfg.base + 0x040 + 4 * k) :: [] ∧
    (on State.reset (.write32 (at_ (0x040 + 4 * k)) 1#32)).pending =
      .write32 (State.reset.cfg.base + 0x040 + 4 * k) 1#32 :: [] := by decide
theorem witness_RegisterWritesFollowTheMap : State.reset.cfg.wellFormed = true ∧
    ∀ off ∈ [0x008, 0x014, 0x018, 0x020, 0x024, 0x004, 0x070],
      (on State.reset (.write32 (at_ off) 65#32)).pending = .write32 (State.reset.cfg.base + off) 65#32 :: [] := by decide
/-- The last byte of a window of each kind. -/
theorem witness_WindowAccessesReachTheirByte : State.reset.cfg.wellFormed = true ∧
    63 < Buffer.size State.reset.cfg .pbuf ∧ 63 < Buffer.size State.reset.cfg .txbuf ∧
    31 < Buffer.size State.reset.cfg .acc ∧ 0xFFF < 0x1000 ∧
    (on State.reset (.read .w8 (at_ 0x501F))).pending = .read .w8 (State.reset.cfg.base + Buffer.start .acc + 31) :: [] ∧
    (on State.reset (.write8 (at_ 0x103F) 1#8)).pending =
      .write8 (State.reset.cfg.base + Buffer.start .pbuf + 63) 1#8 :: [] ∧
    (on State.reset (.write8 (at_ 0x303F) 1#8)).pending =
      .write8 (State.reset.cfg.base + Buffer.start .txbuf + 63) 1#8 :: [] ∧
    (on State.reset (.write8 (at_ 0x6FFF) 1#8)).pending = .write8 (State.reset.cfg.base + 0x6000 + 0xFFF) 1#8 :: [] := by
  decide
/-- Inside the dispatched frame, at its end, and at the end of the view (V-R17). -/
theorem witness_DframeShowsTheDispatchedFrame : held.cfg.wellFormed = true ∧ ∀ k ∈ [3, 4, 0xFFF], k ≤ 0xFFF ∧
    (on held (.read .w8 (at_ (0x6000 + k)))).pending = .read .w8 (held.cfg.base + 0x6000 + k) :: [] ∧
    held.dframeByte k = if k < 4 then 0x55#8 else 0x00#8 := by decide

end Sys2Proof.Tests
end

/-! # The scope of the model (00_scope.md): O12, O13, O31, O6 and O8

The general layers come first: every command has a next state, what every step keeps of the parameters and the memory, what a
legal configuration says, and the router's byte loop as the automaton `absRun` on byte sequences. The obligations of this family
are settled from them at the end of each part. -/

namespace Sys2Proof.Machine

/-! ## Every command has a next state (60_exceptions.md R262) -/

theorem onlyIn_next (p : Phase) (s : State) (run : State → State) : ∃ t, onlyIn p s run = .next t := by
  by_cases h : s.phase = p
  · exact ⟨_, onlyIn_accepted run h⟩
  · exact ⟨_, onlyIn_refused run h⟩

/-- No command stops the machine, in either phase. -/
theorem exec_next (i : Instr) (s : State) : ∃ t, exec i s = .next t := by
  cases i with
  | feed | ack | pop | prepare | prepareRsp => exact onlyIn_next ..
  | push | count | cstatus | valreq | valrsp | pcalcByte | pchkByte | psetByte | pcalcBit | pchkBit | psetBit | pcalcNone
  | pchkNone | psetNone | get16 | get32 | put16 | put32 => exact ⟨_, rfl⟩

theorem executeCommand_next (v : Word) (s : State) : ∃ t, executeCommand v s = .next t := by
  rcases executeCommand_cases v s with ⟨_, _, h⟩ | ⟨i, _, h⟩ <;> rw [h]
  · exact ⟨_, rfl⟩
  · exact exec_next i s

theorem busWrite32_next (off : Nat) (v : Word) (s : State) : ∃ t, busWrite32 off v s = .next t := by
  rcases busWrite32_cases off v s with ⟨_, h⟩ | ⟨_, _, _, h⟩ | ⟨_, h⟩ <;> rw [h]
  · exact executeCommand_next v _
  · exact ⟨_, rfl⟩
  · exact ⟨_, rfl⟩

/-- An access at a bus address stops the machine only outside the window (log 6). -/
theorem atAddress_next_or_fault (addr : Nat) (s : State) (run : Nat → Host.Outcome State Fault Refusal)
    (hrun : ∀ off, ∃ t, run off = .next t) :
    (∃ t, atAddress addr s run = .next t) ∨ atAddress addr s run = .fault .outsideWindow := by
  unfold atAddress
  cases offsetOf s.cfg addr with
  | some off => exact .inl (hrun off)
  | none => exact .inr rfl

theorem serve_next_or_fault (a : Access) (s : State) :
    (∃ t, serve a s = .next t) ∨ serve a s = .fault .outsideWindow := by
  cases a with
  | read w addr => exact atAddress_next_or_fault addr s _ fun _ => ⟨_, rfl⟩
  | write8 addr v => exact atAddress_next_or_fault addr s _ fun _ => ⟨_, rfl⟩
  | write16 addr v => exact atAddress_next_or_fault addr s _ fun _ => ⟨_, rfl⟩
  | write32 addr v => exact atAddress_next_or_fault addr s _ fun off => busWrite32_next off v s
  | reset => exact .inl ⟨_, rfl⟩

/-! ## The step by configuration and port -/

theorem step_of_illegal {s : State} (h : s.cfg.wellFormed = false) : step s = .refused .invalidConfiguration := by
  simp [step, servePort, h]

theorem step_of_no_access {s : State} (h : s.cfg.wellFormed = true) (hp : s.pending = []) : step s = .next s := by
  simp [step, servePort, h, hp]

theorem step_of_access {s : State} {a : Access} {rest : List Access} (h : s.cfg.wellFormed = true)
    (hp : s.pending = a :: rest) : step s = serve a { s with pending := rest } := by
  simp [step, servePort, h, hp]

/-- Settles O6: the empty-port branch of the step, which a legal configuration reaches. -/
theorem noAccessNoChange : Obligations.NoAccessNoChange := fun _ => step_of_no_access

/-- The step refuses for the configuration and for nothing else, since no access it serves is refused. -/
theorem step_refused_iff (s : State) : step s = .refused .invalidConfiguration ↔ s.cfg.wellFormed = false := by
  refine ⟨fun h => ?_, step_of_illegal⟩
  by_contra hw
  rw [Bool.not_eq_false] at hw
  cases hp : s.pending with
  | nil => simp [step_of_no_access hw hp] at h
  | cons a rest =>
    rw [step_of_access hw hp] at h
    rcases serve_next_or_fault a { s with pending := rest } with ⟨t, ht⟩ | hf
    · simp [ht] at h
    · simp [hf] at h

/-! ## What a legal configuration says (00_scope.md R9, R10) -/

theorem Config.sizesOk_iff (c : Config) : c.sizesOk = true ↔
    (4 ≤ c.accCap ∧ c.accCap ≤ 4096) ∧ (1 ≤ c.qDepth ∧ c.qDepth ≤ 65535) ∧ (1 ≤ c.qFrameMax ∧ c.qFrameMax ≤ 4096) ∧
    (4 ≤ c.pbufSize ∧ c.pbufSize ≤ 4096) ∧ (1 ≤ c.rbufSize ∧ c.rbufSize ≤ 4096) ∧ (1 ≤ c.txSize ∧ c.txSize ≤ 4096) ∧
    (1 ≤ c.rxSize ∧ c.rxSize ≤ 4096) := by
  simp only [Config.sizesOk, Bool.and_eq_true, decide_eq_true_iff, and_assoc]

theorem Config.sentinelsDistinct_iff (c : Config) : c.sentinelsDistinct = true ↔
    c.readyByte ≠ c.busyByte ∧ c.readyByte ≠ c.pollByte ∧ c.busyByte ≠ c.pollByte := by
  simp only [Config.sentinelsDistinct, Bool.and_eq_true, bne_iff_ne, and_assoc]

theorem isFrameSentinel_eq_false_iff (b : Byte) :
    isFrameSentinel b = false ↔ b ≠ 0xAA#8 ∧ b ≠ 0xAB#8 ∧ b ≠ 0x55#8 ∧ b ≠ 0x54#8 := by
  simp only [isFrameSentinel, reqHdr, rspHdr, reqTail, rspTail, Bool.or_eq_false_iff, beq_eq_false_iff_ne, and_assoc]

theorem Config.sentinelsNotFrame_iff (c : Config) : c.sentinelsNotFrame = true ↔
    ∀ b ∈ [c.readyByte, c.busyByte, c.pollByte], isFrameSentinel b = false := by
  simp [Config.sentinelsNotFrame, and_assoc]

theorem Config.sentinelsNotTypes_iff (c : Config) : c.sentinelsNotTypes = true ↔
    ∀ b ∈ [c.readyByte, c.busyByte, c.pollByte], c.knownTypes.getLsbD b.toNat = false := by
  simp [Config.sentinelsNotTypes, Config.knows, and_assoc]

theorem Config.baseAligned_iff (c : Config) : c.baseAligned = true ↔ 32768 ∣ c.base := by
  simp [Config.baseAligned, Nat.dvd_iff_mod_eq_zero]

theorem Config.wellFormed_iff (c : Config) : c.wellFormed = true ↔
    c.sizesOk = true ∧ c.sentinelsDistinct = true ∧ c.sentinelsNotFrame = true ∧ c.sentinelsNotTypes = true ∧
      c.baseAligned = true := by
  simp only [Config.wellFormed, Bool.and_eq_true, and_assoc]

/-- Settles O8: the step refuses exactly when `wellFormed` fails, and `wellFormed` is the list of constraints. -/
theorem onlyAnSfsrRuns : Obligations.OnlyAnSfsrRuns := by
  intro s
  rw [step_refused_iff, ← Bool.not_eq_true, Config.wellFormed_iff, Config.sizesOk_iff, Config.sentinelsDistinct_iff,
    Config.sentinelsNotFrame_iff, Config.sentinelsNotTypes_iff, Config.baseAligned_iff]
  simp only [isFrameSentinel_eq_false_iff, ← and_assoc, forall₂_and]
  exact not_congr (by tauto)

/-! ## What every step keeps: the parameters, and the canonical form of the memory (log 1, log 11) -/

/-- `t` has the parameters of `s`, and its memory is canonical if that of `s` is. -/
structure State.KeptIn (s t : State) : Prop where
  cfg : t.cfg = s.cfg
  wf : s.mem.wf = true → t.mem.wf = true

theorem State.KeptIn.refl (s : State) : s.KeptIn s := ⟨rfl, id⟩

theorem State.KeptIn.trans {s t u : State} (h : s.KeptIn t) (h' : t.KeptIn u) : s.KeptIn u :=
  ⟨h'.cfg.trans h.cfg, h'.wf ∘ h.wf⟩

theorem State.KeptIn.of_mem_eq {s t : State} (hc : t.cfg = s.cfg) (hm : t.mem = s.mem) : s.KeptIn t :=
  ⟨hc, fun h => hm ▸ h⟩

theorem State.KeptIn.of_putBytes {s t : State} (hc : t.cfg = s.cfg) (x : Nat) (vs : List Byte)
    (hm : t.mem = s.mem.putBytes x vs) : s.KeptIn t :=
  ⟨hc, fun h => hm ▸ Memory.wf_putBytes s.mem x vs h⟩

theorem State.KeptIn.of_put {s t : State} (hc : t.cfg = s.cfg) (x : Nat) (v : Byte) (hm : t.mem = s.mem.put x v) :
    s.KeptIn t :=
  .of_putBytes hc x [v] hm

theorem State.keptIn_fail (s : State) (rc : ResultCode) : s.KeptIn (s.fail rc) := .of_mem_eq rfl rfl

theorem State.keptIn_finishOk (s : State) (v : Word) : s.KeptIn (s.finishOk v) := .of_mem_eq rfl rfl

theorem State.keptIn_answer (s : State) (r : Response) : s.KeptIn (s.answer r) := .of_mem_eq rfl rfl

/-! ### The router -/

theorem SameButRouter.cfg {s t : State} (h : SameButRouter s t) : t.cfg = s.cfg := by
  rw [show t = _ from h]

theorem SameButRouter.hen {s t : State} (h : SameButRouter s t) : t.hen = s.hen := by
  rw [show t = _ from h]

theorem SameButRouter.feedEnd {s t : State} (h : SameButRouter s t) : t.feedEnd = s.feedEnd := by
  rw [show t = _ from h]

/-- One turn of the byte loop writes one byte of memory, ACC[ACC_LEN]. -/
theorem loopTurn_mem (s : State) :
    (loopTurn s).2.mem = s.mem.put (Buffer.start .acc + s.accLen) (s.byteAt .rxbuf s.feedPos) := accByte_mem _ _

/-- One turn of the byte loop moves FEED_POS by one. -/
theorem loopTurn_feedPos (s : State) : (loopTurn s).2.feedPos = s.feedPos + 1 := accByte_feedPos _ _

theorem loopTurn_kept (s : State) : s.KeptIn (loopTurn s).2 := .of_put (loopTurn_same s).cfg _ _ (loopTurn_mem s)

theorem runLoop_kept (s : State) : s.KeptIn (runLoop s) :=
  runTurns_induct s.KeptIn (fun u hu _ => hu.trans (loopTurn_kept u)) _ s (.refl s)

theorem wholeFrame_kept (s : State) : s.KeptIn (wholeFrame s) := by
  rcases wholeFrame_cases s with ⟨_, _, h⟩ | ⟨_, h⟩ <;> rw [h] <;> exact .of_mem_eq rfl rfl

/-- FEED with a chunk inside RXBUF, ACCUMULATE (41_router.md R164). -/
theorem feedChunk_accumulate {n : Nat} {s : State} (hn : s.rxOff + n ≤ s.cfg.rxSize) (hp : s.cfg.policy = .accumulate) :
    feedChunk n s = (runLoop { s with feedPos := s.rxOff, feedEnd := s.rxOff + n }).finishRouter := by
  simp [feedChunk, Nat.not_lt.mpr hn, hp]

/-- FEED with a chunk inside RXBUF, WHOLE_FRAME (41_router.md R164, R168). -/
theorem feedChunk_wholeFrame {n : Nat} {s : State} (hn : s.rxOff + n ≤ s.cfg.rxSize) (hp : s.cfg.policy = .wholeFrame) :
    feedChunk n s = (wholeFrame { s with feedPos := s.rxOff, feedEnd := s.rxOff + n }).finishRouter := by
  simp [feedChunk, Nat.not_lt.mpr hn, hp]

theorem feedChunk_beyond {n : Nat} {s : State} (hn : s.cfg.rxSize < s.rxOff + n) : feedChunk n s = s.fail .arg := if_pos hn

theorem ackDispatch_accumulate {s : State} (hp : s.cfg.policy = .accumulate) :
    ackDispatch s = (runLoop { s with phase := .idle, accLen := 0 }).finishRouter := by
  simp [ackDispatch, hp]

theorem ackDispatch_wholeFrame {s : State} (hp : s.cfg.policy = .wholeFrame) :
    ackDispatch s = { s with phase := .idle }.finishRouter := by
  simp [ackDispatch, hp]

theorem feedChunk_kept (n : Nat) (s : State) : s.KeptIn (feedChunk n s) := by
  have hcursors : s.KeptIn { s with feedPos := s.rxOff, feedEnd := s.rxOff + n } := .of_mem_eq rfl rfl
  rcases Nat.lt_or_ge s.cfg.rxSize (s.rxOff + n) with hn | hn
  · rw [feedChunk_beyond hn]
    exact s.keptIn_fail _
  · cases hp : s.cfg.policy with
    | accumulate =>
      rw [feedChunk_accumulate hn hp]
      exact (hcursors.trans (runLoop_kept _)).trans (State.keptIn_finishOk _ _)
    | wholeFrame =>
      rw [feedChunk_wholeFrame hn hp]
      exact (hcursors.trans (wholeFrame_kept _)).trans (State.keptIn_finishOk _ _)

theorem ackDispatch_kept (s : State) : s.KeptIn (ackDispatch s) := by
  cases hp : s.cfg.policy with
  | accumulate =>
    rw [ackDispatch_accumulate hp]
    have hempty : s.KeptIn { s with phase := .idle, accLen := 0 } := .of_mem_eq rfl rfl
    exact (hempty.trans (runLoop_kept _)).trans (State.keptIn_finishOk _ _)
  | wholeFrame =>
    rw [ackDispatch_wholeFrame hp]
    exact .of_mem_eq rfl rfl

/-! ### The other commands -/

theorem pushFrame_kept (s : State) : s.KeptIn (pushFrame s) := by
  rcases pushFrame_cases s with ⟨_, h⟩ | ⟨_, _, h⟩ | ⟨_, _, _, h⟩ <;> rw [h] <;> exact .of_mem_eq rfl rfl

theorem popFrame_kept (c : Nat) (s : State) : s.KeptIn (popFrame c s) := by
  rcases popFrame_cases c s with ⟨_, h⟩ | ⟨_, _, h⟩ | ⟨_, _, _, h⟩ | ⟨_, _, _, h⟩ <;> rw [h]
  · exact .of_mem_eq rfl rfl
  · exact .of_mem_eq rfl rfl
  · exact .of_mem_eq rfl rfl
  · exact .of_putBytes rfl _ _ rfl

theorem prepareTx_kept (b : Byte) (n : Nat) (rsp : Option (List Byte)) (s : State) : s.KeptIn (prepareTx b n rsp s) := by
  rcases prepareTx_cases b n rsp s with ⟨_, h⟩ | ⟨_, _, _, _, _, _, h⟩ | ⟨_, _, _, _, h⟩ <;> rw [h] <;>
    exact .of_putBytes rfl _ _ rfl

theorem validateFrame_kept (hdr tail ty : Byte) (l : Nat) (s : State) : s.KeptIn (validateFrame hdr tail ty l s) := by
  rcases validateFrame_cases hdr tail ty l s with ⟨_, h⟩ | ⟨_, _, _, h⟩ | ⟨_, _, _, _, _, h⟩ <;> rw [h] <;>
    exact .of_mem_eq rfl rfl

theorem withParityArgs_kept (last pidx : Nat) {run : State → State} {s : State} (hrun : s.KeptIn (run s)) :
    s.KeptIn (withParityArgs last pidx run s) := by
  rcases withParityArgs_cases last pidx run s with ⟨_, h⟩ | ⟨_, h⟩ <;> rw [h]
  · exact hrun
  · exact s.keptIn_fail _

theorem withBeArgs_kept (off w : Nat) {run : State → State} {s : State} (hrun : s.KeptIn (run s)) :
    s.KeptIn (withBeArgs off w run s) := by
  rcases withBeArgs_cases off w run s with ⟨_, h⟩ | ⟨_, h⟩ <;> rw [h]
  · exact hrun
  · exact s.keptIn_fail _

/-- A parity check keeps both on a match and on a mismatch. -/
theorem parityCheck_kept (p : Prop) [Decidable p] (s : State) (v : Word) :
    s.KeptIn (if p then s.finishOk v else s.fail .parity) := by
  split
  · exact s.keptIn_finishOk v
  · exact s.keptIn_fail _

theorem onlyIn_kept {p : Phase} {s t : State} {run : State → State} (hrun : s.KeptIn (run s))
    (h : onlyIn p s run = .next t) : s.KeptIn t := by
  rcases onlyIn_cases h with ⟨_, rfl⟩ | ⟨_, rfl⟩
  · exact hrun
  · exact .of_mem_eq rfl rfl

theorem inBoth_kept {s t : State} {run : State → State} (hrun : s.KeptIn (run s)) (h : inBoth s run = .next t) :
    s.KeptIn t := inBoth_cases h ▸ hrun

/-- Every command, executed or refused, keeps both. -/
theorem exec_kept {i : Instr} {s t : State} (h : exec i s = .next t) : s.KeptIn t := by
  cases i with
  | feed n => exact onlyIn_kept (feedChunk_kept n s) h
  | ack => exact onlyIn_kept (ackDispatch_kept s) h
  | push => exact inBoth_kept (pushFrame_kept s) h
  | pop n => exact onlyIn_kept (popFrame_kept n s) h
  | prepare b n => exact onlyIn_kept (prepareTx_kept b n _ s) h
  | prepareRsp b n => exact onlyIn_kept (prepareTx_kept b n _ s) h
  | valreq ty l => exact inBoth_kept (validateFrame_kept _ _ ty l s) h
  | valrsp ty l => exact inBoth_kept (validateFrame_kept _ _ ty l s) h
  | count | cstatus | pcalcNone | pchkNone | psetNone =>
    cases h
    exact s.keptIn_finishOk _
  | pcalcByte last pidx | pcalcBit last pidx =>
    exact inBoth_kept (withParityArgs_kept last pidx (s.keptIn_finishOk _)) h
  | pchkByte last pidx | pchkBit last pidx => exact inBoth_kept (withParityArgs_kept last pidx (parityCheck_kept _ s _)) h
  | psetByte last pidx | psetBit last pidx => exact inBoth_kept (withParityArgs_kept last pidx (.of_put rfl _ _ rfl)) h
  | get16 off | get32 off => exact inBoth_kept (withBeArgs_kept off _ (s.keptIn_finishOk _)) h
  | put16 off | put32 off => exact inBoth_kept (withBeArgs_kept off _ (.of_putBytes rfl _ _ rfl)) h

/-! ### The port and the step -/

theorem writeCsr_kept (s : State) (w : Word) (c : Csr) : s.KeptIn (s.writeCsr w c) := by
  rcases writeCsr_cases s w c with ⟨_, h⟩ | ⟨_, h⟩ | ⟨_, h⟩ | ⟨_, h⟩ | ⟨_, h⟩ | ⟨_, _, h⟩ | h <;> rw [h] <;>
    exact .of_mem_eq rfl rfl

theorem busWrite8_kept (off : Nat) (v : Byte) (s : State) : s.KeptIn (busWrite8 off v s) := by
  rcases busWrite8_cases off v s with ⟨b, k, _, _, h⟩ | ⟨_, _, h⟩ | ⟨_, h⟩ <;> rw [h]
  · exact .of_put rfl _ _ rfl
  · exact s.keptIn_answer _
  · exact s.keptIn_answer _

theorem executeCommand_kept {v : Word} {s t : State} (h : executeCommand v s = .next t) : s.KeptIn t := by
  rcases executeCommand_cases v s with ⟨_, _, he⟩ | ⟨i, _, he⟩ <;> rw [he] at h
  · cases h
    exact .of_mem_eq rfl rfl
  · exact exec_kept h

theorem busWrite32_kept {off : Nat} {v : Word} {s t : State} (h : busWrite32 off v s = .next t) : s.KeptIn t := by
  rcases busWrite32_cases off v s with ⟨_, hw⟩ | ⟨c, _, _, hw⟩ | ⟨_, hw⟩ <;> rw [hw] at h
  · exact (s.keptIn_answer .done).trans (executeCommand_kept h)
  · cases h
    exact (s.keptIn_answer .done).trans (writeCsr_kept _ v c)
  · cases h
    exact s.keptIn_answer _

theorem serve_kept {a : Access} {s t : State} (h : serve a s = .next t) : s.KeptIn t := by
  cases a with
  | read w addr =>
    obtain ⟨off, _, hr⟩ := atAddress_next h
    obtain ⟨r, hb⟩ := busRead_eq w off s
    cases hr
    exact hb ▸ s.keptIn_answer r
  | write8 addr v =>
    obtain ⟨off, _, hr⟩ := atAddress_next h
    cases hr
    exact busWrite8_kept off v s
  | write16 addr v =>
    obtain ⟨_, _, hr⟩ := atAddress_next h
    cases hr
    exact s.keptIn_answer _
  | write32 addr v =>
    obtain ⟨_, _, hr⟩ := atAddress_next h
    exact busWrite32_kept hr
  | reset =>
    cases h
    exact ⟨rfl, fun _ => rfl⟩

theorem step_kept {s t : State} (h : step s = .next t) : s.KeptIn t := by
  obtain ⟨_, ⟨_, rfl⟩ | ⟨a, rest, _, hs⟩⟩ := servePort_cases h
  · exact .refl _
  · have hserve := serve_kept hs
    exact ⟨hserve.cfg, hserve.wf⟩

/-- Settles O12: the configuration part of what a step keeps. -/
theorem noStepChangesAParameter : Obligations.NoStepChangesAParameter := fun _ _ h => (step_kept h).cfg

/-- Settles O13: the memory part of what a step keeps. -/
theorem everyStepKeepsTheMemoryCanonical : Obligations.EveryStepKeepsTheMemoryCanonical :=
  fun _ _ hwf h => (step_kept h).wf hwf

/-! ## The accumulator as a byte sequence (10_state.md R29) -/

@[simp] theorem State.length_accBytes (s : State) : s.accBytes.length = s.accLen := s.length_bytesOf _ _

theorem State.accBytes_congr {s t : State} (hm : t.mem = s.mem) (hl : t.accLen = s.accLen) : t.accBytes = s.accBytes := by
  simp [State.accBytes, State.bytesOf, hm, hl]

theorem State.accBytes_of_accLen_zero {s : State} (h : s.accLen = 0) : s.accBytes = [] :=
  List.length_eq_zero_iff.mp (by simpa using h)

theorem State.getD_accBytes (s : State) {i : Nat} (h : i < s.accLen) (d : Byte) : s.accBytes.getD i d = s.byteAt .acc i :=
  s.getD_bytesOf .acc h d

theorem State.head?_accBytes (s : State) (h : 0 < s.accLen) : s.accBytes.head? = some (s.byteAt .acc 0) := by
  have hlen : 0 < s.accBytes.length := by simpa using h
  rw [List.head?_eq_getElem?, List.getElem?_eq_getElem hlen, ← List.getD_eq_getElem _ 0#8 hlen, s.getD_accBytes h]

theorem State.byteAt_appendAcc (s : State) (b : Byte) (k : Nat) :
    (s.appendAcc b).byteAt .acc k = if s.accLen = k then b else s.byteAt .acc k :=
  s.byteAt_putByte_same .acc s.accLen b k

/-- The byte step's append is the append of sequences. -/
theorem State.accBytes_appendAcc (s : State) (b : Byte) : (s.appendAcc b).accBytes = s.accBytes ++ [b] := by
  have hold : (s.appendAcc b).bytesOf .acc s.accLen = s.accBytes :=
    Memory.bytes_congr fun i hi => (s.byteAt_appendAcc b i).trans (if_neg (by omega))
  have hnew : (s.appendAcc b).byteAt .acc s.accLen = b := (s.byteAt_appendAcc b s.accLen).trans (if_pos rfl)
  calc (s.appendAcc b).accBytes
      = (s.appendAcc b).bytesOf .acc s.accLen ++ [(s.appendAcc b).byteAt .acc s.accLen] := Memory.bytes_succ _ _ _
    _ = s.accBytes ++ [b] := by rw [hold, hnew]

/-- What the accumulator satisfies while the router takes bytes: the part of 10_state.md R45 that the byte step rests on. -/
structure State.Accumulating (s : State) : Prop where
  idle : s.phase = .idle
  room : s.accLen < s.cfg.accCap
  fits : s.cfg.accCap ≤ 4096
  header : 1 ≤ s.accLen → s.byteAt .acc 0 = reqHdr
  noTail : ∀ k, 3 ≤ k → k < s.accLen → s.byteAt .acc k ≠ reqTail

theorem State.Accumulating.of_inv {s : State} (h : s.Inv) (hidle : s.phase = .idle) : s.Accumulating where
  idle := hidle
  room := h.accBounded.1 hidle
  fits := ((Config.sizesOk_iff _).mp ((Config.wellFormed_iff _).mp h.config).1).1.2
  header := h.accHeader
  noTail k hk hlt htail := by
    obtain ⟨_, hdispatch, _⟩ := h.accNoTail k hlt hk htail
    rw [hidle] at hdispatch
    cases hdispatch

/-- An emptied accumulator takes bytes again. -/
theorem State.Accumulating.empty {s t : State} (h : s.Accumulating) (hp : t.phase = .idle) (hc : t.cfg = s.cfg)
    (hl : t.accLen = 0) : t.Accumulating where
  idle := hp
  room := by rw [hl, hc]; exact Nat.zero_lt_of_lt h.room
  fits := hc ▸ h.fits
  header h1 := by omega
  noTail k _ hlt := by omega

/-! ## The byte step on the sequence (41_router.md R162, R167) -/

/-- The header test of the appended sequence is the test of its first byte. -/
theorem State.head?_append_accBytes (s : State) (b : Byte) :
    (s.accBytes ++ [b]).head? = some ((s.appendAcc b).byteAt .acc 0) := by
  rw [← s.accBytes_appendAcc, State.head?_accBytes _ (by simp)]

/-- Only the byte just appended can be a tail, and it closes the frame from the fourth byte on (R167). -/
theorem State.Accumulating.findTail_appendAcc {s : State} (h : s.Accumulating) (b : Byte) :
    (s.appendAcc b).findTail = if 4 ≤ s.accLen + 1 ∧ b = 0x55#8 then some s.accLen else none := by
  have hold : ∀ k, k < s.accLen → (s.appendAcc b).byteAt .acc k = s.byteAt .acc k := fun k hk =>
    (s.byteAt_appendAcc b k).trans (if_neg (by omega))
  have hnew : (s.appendAcc b).byteAt .acc s.accLen = b := (s.byteAt_appendAcc b s.accLen).trans (if_pos rfl)
  cases hf : (s.appendAcc b).findTail with
  | some i =>
    obtain ⟨h3, hlt, htail, _⟩ := State.findTail_some hf
    rw [State.appendAcc_accLen] at hlt
    have hi : i = s.accLen := by
      by_contra hne
      exact h.noTail i h3 (by omega) (hold i (by omega) ▸ htail)
    subst hi
    rw [if_pos ⟨by omega, hnew ▸ htail⟩]
  | none =>
    rw [if_neg]
    rintro ⟨h4, hb⟩
    exact State.findTail_none hf s.accLen (by omega) (by simp) (hnew.trans hb)

/-! The automaton's byte step, one equation per branch. -/

section AbsByte

variable {cap : Nat} {routable : Byte → Bool} {acc : List Byte} {b : Byte}

theorem absByte_of_no_header (h : (acc ++ [b]).head? ≠ some 0xAA#8) : absByte cap routable acc b = (.cont, []) := if_pos h

theorem absByte_of_tail (h : (acc ++ [b]).head? = some 0xAA#8) (hlen : 4 ≤ acc.length + 1) (hb : b = 0x55#8) :
    absByte cap routable acc b = if routable ((acc ++ [b]).getD 1 0#8) then (.suspend, acc ++ [b]) else (.cont, []) := by
  unfold absByte
  rw [if_neg (not_not.mpr h), if_pos ⟨by simpa using hlen, hb⟩]

theorem absByte_of_no_tail (h : (acc ++ [b]).head? = some 0xAA#8) (ht : ¬ (4 ≤ acc.length + 1 ∧ b = 0x55#8)) :
    absByte cap routable acc b = if acc.length + 1 = cap then (.cont, []) else (.cont, acc ++ [b]) := by
  unfold absByte
  rw [if_neg (not_not.mpr h), if_neg (by simpa using ht), List.length_append, List.length_singleton]

end AbsByte

/-- The phase a byte step or a byte loop leaves. -/
def Flow.phase : Flow → Phase
  | .cont => .idle
  | .suspend => .dispatch

/-- A byte step that answers the flow `f` and the state `t` does what the automaton's result says: the same flow, the same bytes,
and an accumulator that takes bytes again unless a dispatch was made. -/
structure State.StepsAs (t : State) (f : Flow) (r : Flow × List Byte) : Prop where
  flow : f = r.1
  bytes : t.accBytes = r.2
  phase : t.phase = f.phase
  continues : f = .cont → t.Accumulating

/-- A step that empties the accumulator does what the automaton does when it drops its bytes. -/
theorem State.Accumulating.drops {s t : State} (h : s.Accumulating) (hp : t.phase = .idle) (hc : t.cfg = s.cfg)
    (hl : t.accLen = 0) : t.StepsAs .cont (.cont, []) :=
  ⟨rfl, State.accBytes_of_accLen_zero hl, hp, fun _ => h.empty hp hc hl⟩

/-- An appended byte that closes no frame and leaves room keeps the accumulator in order. -/
theorem State.Accumulating.appendAcc {s : State} (h : s.Accumulating) {b : Byte}
    (hh : (s.appendAcc b).byteAt .acc 0 = reqHdr) (hnone : (s.appendAcc b).findTail = none)
    (hroom : s.accLen + 1 ≠ s.cfg.accCap) : (s.appendAcc b).Accumulating where
  idle := h.idle
  room := Nat.lt_of_le_of_ne h.room hroom
  fits := h.fits
  header _ := hh
  noTail := State.findTail_none hnone

/-- The dispatch decision at the byte just appended is the automaton's. -/
theorem State.Accumulating.dispatchAcc_stepsAs {s : State} (h : s.Accumulating) {b : Byte} (h4 : 4 ≤ s.accLen + 1) :
    State.StepsAs (dispatchAcc (s.appendAcc b)).2 (dispatchAcc (s.appendAcc b)).1
      (if s.routable ((s.accBytes ++ [b]).getD 1 0#8) then (.suspend, s.accBytes ++ [b]) else (.cont, [])) := by
  have htype : (s.accBytes ++ [b]).getD 1 0#8 = (s.appendAcc b).byteAt .acc 1 := by
    rw [← s.accBytes_appendAcc, State.getD_accBytes _ (by simp; omega)]
  rw [htype]
  rcases dispatchAcc_cases (s.appendAcc b) with ⟨hr, hd⟩ | ⟨hr, hd⟩ <;> rw [hd]
  · rw [if_pos (show s.routable _ = true from hr)]
    exact ⟨rfl, s.accBytes_appendAcc b, rfl, fun hf => by cases hf⟩
  · rw [if_neg (Bool.eq_false_iff.mp (show s.routable _ = false from hr))]
    exact h.drops h.idle rfl rfl

/-- The byte step of the machine is the byte step of the automaton. -/
theorem State.Accumulating.accByte_stepsAs {s : State} (h : s.Accumulating) (b : Byte) :
    State.StepsAs (accByte b s).2 (accByte b s).1 (absByte s.cfg.accCap s.routable s.accBytes b) := by
  have hhead := s.head?_append_accBytes b
  have hscan := h.findTail_appendAcc b
  rcases accByte_cases b s with ⟨hh, hacc⟩ | ⟨hh, i, hi, hacc⟩ | ⟨hh, hnone, hfull, hacc⟩ | ⟨hh, hnone, hroom, hacc⟩ <;>
    rw [hacc]
  case inl =>
    rw [absByte_of_no_header (by rw [hhead]; simpa [reqHdr] using hh)]
    exact h.drops h.idle rfl rfl
  case inr.inl =>
    rw [hi] at hscan
    obtain ⟨⟨h4, hb⟩, hlast⟩ := Option.ite_none_right_eq_some.mp hscan.symm
    cases hlast
    rw [absByte_of_tail (by rw [hhead, hh]; rfl) (by simpa using h4) hb]
    exact h.dispatchAcc_stepsAs h4
  all_goals
    have hnotail : ¬ (4 ≤ s.accBytes.length + 1 ∧ b = 0x55#8) := by
      rw [hnone] at hscan
      simpa using hscan
    rw [absByte_of_no_tail (by rw [hhead, hh]; rfl) hnotail, s.length_accBytes]
  case inr.inr.inl =>
    rw [if_pos hfull]
    exact h.drops h.idle rfl rfl
  case inr.inr.inr =>
    rw [if_neg hroom]
    exact ⟨rfl, s.accBytes_appendAcc b, h.idle, fun _ => h.appendAcc hh hnone hroom⟩

/-! ## The byte loop on the sequence (41_router.md R165) -/

/-- The bytes of the chunk that the loop has not yet read: RXBUF[FEED_POS..FEED_END-1]. -/
def State.unread (s : State) : List Byte := s.mem.bytes (Buffer.start .rxbuf + s.feedPos) (s.feedEnd - s.feedPos)

theorem State.unread_of_done {s : State} (h : ¬ s.feedPos < s.feedEnd) : s.unread = [] :=
  List.length_eq_zero_iff.mp (by simp only [State.unread, Memory.length_bytes]; omega)

theorem Memory.bytes_succ_front (m : Memory) (x n : Nat) : m.bytes x (n + 1) = m.get x :: m.bytes (x + 1) n := by
  simp [Memory.bytes, List.range_succ_eq_map, Function.comp_def, Nat.add_assoc, Nat.add_comm 1]

/-- A turn takes the first unread byte, and its write to ACC leaves the other unread bytes as they are. -/
theorem State.Accumulating.unread_loopTurn {s : State} (h : s.Accumulating) (hlt : s.feedPos < s.feedEnd)
    (hrx : s.feedEnd ≤ 4096) : s.unread = s.byteAt .rxbuf s.feedPos :: (loopTurn s).2.unread := by
  obtain ⟨n, hn⟩ : ∃ n, s.feedEnd = s.feedPos + 1 + n := ⟨s.feedEnd - s.feedPos - 1, by omega⟩
  have hkeep : (loopTurn s).2.unread = s.mem.bytes (Buffer.start .rxbuf + (s.feedPos + 1)) n := by
    have hlen : s.feedPos + 1 + n - (s.feedPos + 1) = n := by omega
    simp only [State.unread, loopTurn_mem, loopTurn_feedPos, (loopTurn_same s).feedEnd, hn, hlen]
    refine Memory.bytes_congr fun i hi => Memory.get_put_other _ _ ?_
    have hroom := h.room
    have hfits := h.fits
    simp only [Buffer.start]
    omega
  have hlen : s.feedPos + 1 + n - s.feedPos = n + 1 := by omega
  rw [hkeep, State.unread, hn, hlen, Memory.bytes_succ_front]
  rfl

theorem State.Accumulating.loopTurn_stepsAs {s : State} (h : s.Accumulating) :
    State.StepsAs (loopTurn s).2 (loopTurn s).1 (absByte s.cfg.accCap s.routable s.accBytes (s.byteAt .rxbuf s.feedPos)) := by
  have hmoved : ({ s with feedPos := s.feedPos + 1 } : State).Accumulating := ⟨h.idle, h.room, h.fits, h.header, h.noTail⟩
  obtain ⟨hflow, hbytes, hphase, hcont⟩ := hmoved.accByte_stepsAs (s.byteAt .rxbuf s.feedPos)
  exact ⟨hflow, hbytes, hphase, hcont⟩

/-- What a byte loop from `s` to `t` has to do with the automaton's result: its bytes, its flow in the phase, and the bytes it
left unread. -/
structure State.RunsAs (s t : State) (r : Flow × List Byte × List Byte) : Prop where
  bytes : t.accBytes = r.2.1
  phase : t.phase = r.1.phase
  left : t.feedPos + r.2.2.length = s.feedEnd

/-- The byte loop of the machine is the run of the automaton over the unread bytes. -/
theorem State.Accumulating.runTurns_runsAs (k : Nat) {s : State} (h : s.Accumulating) (hk : s.feedPos + k = s.feedEnd)
    (hrx : s.feedEnd ≤ 4096) : s.RunsAs (runTurns k s) (absRun s.cfg.accCap s.routable s.accBytes s.unread) := by
  induction k generalizing s with
  | zero =>
    rw [State.unread_of_done (by omega)]
    exact ⟨rfl, h.idle, hk⟩
  | succ k ih =>
    have hlt : s.feedPos < s.feedEnd := by omega
    obtain ⟨hflow, hbytes, hphase, hcont⟩ := h.loopTurn_stepsAs
    have hpos := loopTurn_feedPos s
    have hsame := loopTurn_same s
    rw [h.unread_loopTurn hlt hrx, runTurns_succ k s hlt, absRun]
    rcases hl : loopTurn s with ⟨f, s'⟩
    rcases ha : absByte s.cfg.accCap s.routable s.accBytes (s.byteAt .rxbuf s.feedPos) with ⟨f', acc'⟩
    rw [hl] at hflow hbytes hphase hcont hpos hsame
    rw [ha] at hflow hbytes
    dsimp only at hflow hbytes hphase hcont hpos hsame
    subst hflow hbytes
    have hend := hsame.feedEnd
    cases f with
    | cont =>
      rw [← hsame.cfg, ← State.routable_congr hsame.cfg hsame.hen]
      obtain ⟨hb, hp, hleft⟩ := ih (hcont rfl) (by omega) (hend ▸ hrx)
      exact ⟨hb, hp, hleft.trans hend⟩
    | suspend => exact ⟨rfl, hphase, by simp [State.unread]; omega⟩

theorem State.Accumulating.runLoop_runsAs {s : State} (h : s.Accumulating) (hle : s.feedPos ≤ s.feedEnd)
    (hrx : s.feedEnd ≤ 4096) : s.RunsAs (runLoop s) (absRun s.cfg.accCap s.routable s.accBytes s.unread) :=
  h.runTurns_runsAs _ (by omega) hrx

/-! ## Chunks that hold no frame sentinel (41_router.md R177) -/

section AbsRun

variable {cap : Nat} {routable : Byte → Bool}

theorem absByte_flow_of_ne_tail {b : Byte} (hb : b ≠ 0x55#8) (acc : List Byte) :
    (absByte cap routable acc b).1 = .cont := by
  by_cases h : (acc ++ [b]).head? = some 0xAA#8
  · rw [absByte_of_no_tail h (by simp [hb])]
    split <;> rfl
  · rw [absByte_of_no_header h]

/-- Without a tail no dispatch is made, and the whole chunk is used up. -/
theorem absRun_of_no_tail {bs : List Byte} (hbs : ∀ b ∈ bs, b ≠ 0x55#8) (acc : List Byte) :
    ∃ acc', absRun cap routable acc bs = (.cont, acc', []) := by
  induction bs generalizing acc with
  | nil => exact ⟨acc, rfl⟩
  | cons b rest ih =>
    obtain ⟨hb, hrest⟩ := List.forall_mem_cons.mp hbs
    have hflow := absByte_flow_of_ne_tail (cap := cap) (routable := routable) hb acc
    rw [absRun]
    rcases ha : absByte cap routable acc b with ⟨f, acc'⟩
    rw [ha] at hflow
    subst hflow
    exact ih hrest acc'

/-- Between frames, bytes that are no header leave the accumulator empty. -/
theorem absRun_nil_of_no_header {bs : List Byte} (hbs : ∀ b ∈ bs, b ≠ 0xAA#8) :
    absRun cap routable [] bs = (.cont, [], []) := by
  induction bs with
  | nil => rfl
  | cons b rest ih =>
    obtain ⟨hb, hrest⟩ := List.forall_mem_cons.mp hbs
    rw [absRun, absByte_of_no_header (by simpa using hb)]
    exact ih hrest

/-- Inside a frame, bytes that are no tail are appended while there is room. -/
theorem absRun_append {bs acc : List Byte} (hacc : acc.head? = some 0xAA#8) (hbs : ∀ b ∈ bs, b ≠ 0x55#8)
    (hroom : acc.length + bs.length < cap) : absRun cap routable acc bs = (.cont, acc ++ bs, []) := by
  induction bs generalizing acc with
  | nil => simp [absRun]
  | cons b rest ih =>
    obtain ⟨hb, hrest⟩ := List.forall_mem_cons.mp hbs
    rw [List.length_cons] at hroom
    have hhead : (acc ++ [b]).head? = some 0xAA#8 := by simp [List.head?_append, hacc]
    rw [absRun, absByte_of_no_tail hhead (by simp [hb]), if_neg (by omega)]
    have happ := ih hhead hrest (by simp; omega)
    simpa using happ

end AbsRun

/-- The handshake bytes of a legal configuration are neither a request header nor a request tail (00_scope.md R10). -/
theorem Config.handshake_ne_sentinel {c : Config} (h : c.wellFormed = true) {b : Byte}
    (hb : b = c.pollByte ∨ b = c.readyByte ∨ b = c.busyByte) : b ≠ 0xAA#8 ∧ b ≠ 0x55#8 := by
  obtain ⟨_, _, hframe, _, _⟩ := (Config.wellFormed_iff c).mp h
  have hmem : b ∈ [c.readyByte, c.busyByte, c.pollByte] := by simpa [or_comm, or_assoc, or_left_comm] using hb
  obtain ⟨hhdr, _, htail, _⟩ := (isFrameSentinel_eq_false_iff b).mp ((Config.sentinelsNotFrame_iff c).mp hframe b hmem)
  exact ⟨hhdr, htail⟩

/-- FEED in ACCUMULATE from IDLE runs the automaton over its chunk (41_router.md R164): the state it leaves is the end of a loop
that runs as the automaton does. -/
theorem exec_feed_runsAs {s : State} {n : Nat} (h : s.Inv) (hidle : s.phase = .idle) (hp : s.cfg.policy = .accumulate)
    (hn : s.rxOff + n ≤ s.cfg.rxSize) :
    ∃ t, exec (.feed n) s = .next t.finishRouter ∧
      State.RunsAs { s with feedPos := s.rxOff, feedEnd := s.rxOff + n } t
        (absRun s.cfg.accCap s.routable s.accBytes (s.chunk n)) := by
  have hready := State.Accumulating.of_inv h hidle
  have hstart : ({ s with feedPos := s.rxOff, feedEnd := s.rxOff + n } : State).Accumulating :=
    ⟨hready.idle, hready.room, hready.fits, hready.header, hready.noTail⟩
  have hchunk : ({ s with feedPos := s.rxOff, feedEnd := s.rxOff + n } : State).unread = s.chunk n := by
    simp [State.unread, State.chunk]
  have hrx : s.cfg.rxSize ≤ 4096 := by
    obtain ⟨hsizes, _⟩ := (Config.wellFormed_iff _).mp h.config
    obtain ⟨_, _, _, _, _, _, _, hrx⟩ := (Config.sizesOk_iff _).mp hsizes
    exact hrx
  have hruns := hstart.runLoop_runsAs (Nat.le_add_right _ _) (Nat.le_trans hn hrx)
  rw [hchunk] at hruns
  refine ⟨_, ?_, hruns⟩
  rw [← feedChunk_accumulate hn hp]
  exact onlyIn_accepted _ hidle

/-- Settles O31: FEED runs the automaton, and on bytes that are no sentinel the automaton drops them outside a frame and appends
them inside one. -/
theorem handshakeBytesBetweenFramesAreDropped : Obligations.HandshakeBytesBetweenFramesAreDropped := by
  intro s n h hidle hp hn hbytes
  have hheader : ∀ b ∈ s.chunk n, b ≠ 0xAA#8 := fun b hb => (Config.handshake_ne_sentinel h.config (hbytes b hb)).1
  have htail : ∀ b ∈ s.chunk n, b ≠ 0x55#8 := fun b hb => (Config.handshake_ne_sentinel h.config (hbytes b hb)).2
  obtain ⟨t, hexec, hacc, hphase, hleft⟩ := exec_feed_runsAs h hidle hp hn
  obtain ⟨acc, hrun⟩ := absRun_of_no_tail (cap := s.cfg.accCap) (routable := s.routable) htail s.accBytes
  have hidle' : t.phase = .idle := hphase.trans (by rw [hrun]; rfl)
  refine ⟨t.finishRouter, hexec, hidle', ?_, ?_, fun hzero => ?_, fun hpos hroom => ?_⟩
  · show dispatchResult t.phase = 0#32
    rw [hidle']
    rfl
  · rw [hrun] at hleft
    exact hleft
  · rw [State.accBytes_of_accLen_zero hzero, absRun_nil_of_no_header hheader] at hacc
    show t.accLen = 0
    rw [← t.length_accBytes, hacc]
    rfl
  · have hhead : s.accBytes.head? = some 0xAA#8 := by rw [s.head?_accBytes hpos, h.accHeader hpos]
    have hlen : s.accBytes.length + (s.chunk n).length < s.cfg.accCap := by simpa [State.chunk] using hroom
    rw [absRun_append hhead htail hlen] at hacc
    exact hacc

end Sys2Proof.Machine

/-! # The state of the block (10_state.md): O11, O35, O36, O14, O15, O17, O18, O19, O21, O32, O53, O5, O10 and O55 to O58

The general layers: which bytes a write reaches, how the byte loop ends, what each command can do (`Effect`), what a step can
do (`Served`). Most obligations of this family are case splits over one of the last two. -/

namespace Sys2Proof.Machine

/-! ## Writes inside one buffer (20_memory.md R61) -/

/-- The memory `m'` is `m` after some writes inside buffer `b`. -/
structure Memory.WrittenIn (c : Config) (b : Buffer) (m m' : Memory) : Prop where
  outside : ∀ a, (a < b.start ∨ b.start + b.size c ≤ a) → m'.get a = m.get a
  cells : ∀ cell ∈ m', cell ∈ m ∨ (b.start ≤ cell.1 ∧ cell.1 < b.start + b.size c)
  wf : m.wf = true → m'.wf = true

theorem Memory.WrittenIn.refl (c : Config) (b : Buffer) (m : Memory) : WrittenIn c b m m :=
  ⟨fun _ _ => rfl, fun _ h => .inl h, id⟩

theorem Memory.WrittenIn.trans {c : Config} {b : Buffer} {m m' m'' : Memory} (h : WrittenIn c b m m')
    (h' : WrittenIn c b m' m'') : WrittenIn c b m m'' where
  outside a ha := (h'.outside a ha).trans (h.outside a ha)
  cells cell hc := (h'.cells cell hc).elim (h.cells cell) .inr
  wf := h'.wf ∘ h.wf

theorem Memory.WrittenIn.putBytes {c : Config} {b : Buffer} (m : Memory) {i : Nat} {vs : List Byte}
    (hfit : i + vs.length ≤ b.size c) : WrittenIn c b m (m.putBytes (b.start + i) vs) where
  outside a ha := by rw [Memory.get_putBytes, if_neg (by omega)]
  cells cell hc := (Memory.mem_putBytes m _ vs cell hc).imp id fun _ => by omega
  wf := Memory.wf_putBytes m _ vs

theorem Memory.WrittenIn.put {c : Config} {b : Buffer} (m : Memory) {i : Nat} (v : Byte) (hi : i < b.size c) :
    WrittenIn c b m (m.put (b.start + i) v) :=
  .putBytes m (vs := [v]) hi

theorem insideBuffer_iff (c : Config) (a : Nat) :
    insideBuffer c a = true ↔ ∃ b : Buffer, b.start ≤ a ∧ a < b.start + b.size c := by
  simp only [insideBuffer, List.any_eq_true, decide_eq_true_iff]
  refine ⟨fun ⟨b, _, h⟩ => ⟨b, h⟩, fun ⟨b, h⟩ => ⟨b, ?_, h⟩⟩
  cases b <;> simp

/-- What is written inside a buffer lies inside a buffer. -/
theorem Memory.WrittenIn.inside {c : Config} {b : Buffer} {m m' : Memory} (h : WrittenIn c b m m')
    (hin : ∀ cell ∈ m, insideBuffer c cell.1 = true) : ∀ cell ∈ m', insideBuffer c cell.1 = true := fun cell hc =>
  (h.cells cell hc).elim (hin cell) fun hb => (insideBuffer_iff c cell.1).mpr ⟨b, hb⟩

theorem Buffer.size_le {c : Config} (h : c.wellFormed = true) (b : Buffer) : b.size c ≤ 4096 := by
  obtain ⟨hsizes, _⟩ := (Config.wellFormed_iff c).mp h
  obtain ⟨hacc, _, _, hpbuf, hrbuf, htx, hrx⟩ := (Config.sizesOk_iff c).mp hsizes
  cases b <;> simp only [Buffer.size] <;> omega

/-- Writes inside a buffer reach no byte of another window. -/
theorem Memory.WrittenIn.get_other {c : Config} {b b' : Buffer} {m m' : Memory} (h : WrittenIn c b m m')
    (hc : c.wellFormed = true) (hne : b' ≠ b) {k : Nat} (hk : k < 4096) : m'.get (b'.start + k) = m.get (b'.start + k) := by
  refine h.outside _ ?_
  by_contra hin
  have hsize := Buffer.size_le hc b
  obtain ⟨j, hj⟩ := Nat.exists_eq_add_of_le (show b.start ≤ b'.start + k by omega)
  exact Buffer.start_add_ne hne hk (by omega) hj

/-! ## How the byte loop ends (41_router.md R165, R178) -/

/-- The accumulator right after a dispatch in ACCUMULATE: a frame from its header to its only tail, latched in the DSP
registers. -/
structure State.Holding (s : State) : Prop where
  dispatch : s.phase = .dispatch
  least : 4 ≤ s.accLen
  fits : s.accLen ≤ s.cfg.accCap
  header : s.byteAt .acc 0 = reqHdr
  tail : s.byteAt .acc (s.accLen - 1) = reqTail
  noTail : ∀ k, 3 ≤ k → k + 1 < s.accLen → s.byteAt .acc k ≠ reqTail
  type : s.dspType = s.byteAt .acc 1
  routable : s.routable s.dspType = true
  len : s.dspLen = s.accLen
  off : s.dspOff = 0

/-- The DSP registers are the same in both states. -/
def State.SameDsp (s t : State) : Prop := t.dspType = s.dspType ∧ t.dspLen = s.dspLen ∧ t.dspOff = s.dspOff

theorem State.SameDsp.trans {s t u : State} (h : s.SameDsp t) (h' : t.SameDsp u) : s.SameDsp u := by
  obtain ⟨htype, hlen, hoff⟩ := h
  obtain ⟨htype', hlen', hoff'⟩ := h'
  exact ⟨htype'.trans htype, hlen'.trans hlen, hoff'.trans hoff⟩

/-- The dispatch decision on an accumulator whose last byte is its only tail. -/
theorem dispatchAcc_ends {s : State} (h4 : 4 ≤ s.accLen) (hfits : s.accLen ≤ s.cfg.accCap)
    (hheader : s.byteAt .acc 0 = reqHdr) (htail : s.byteAt .acc (s.accLen - 1) = reqTail)
    (hfirst : ∀ k, 3 ≤ k → k + 1 < s.accLen → s.byteAt .acc k ≠ reqTail) :
    ((dispatchAcc s).1 = .cont ∧ s.SameDsp (dispatchAcc s).2) ∨
    ((dispatchAcc s).1 = .suspend ∧ (dispatchAcc s).2.Holding) := by
  rcases dispatchAcc_cases s with ⟨hr, hd⟩ | ⟨_, hd⟩ <;> rw [hd]
  · exact .inr ⟨rfl, rfl, h4, hfits, hheader, htail, hfirst, rfl, hr, rfl, rfl⟩
  · exact .inl ⟨rfl, rfl, rfl, rfl⟩

/-- The byte step leaves the DSP registers alone, or ends in a dispatch of what is accumulated. -/
theorem State.Accumulating.accByte_ends {s : State} (h : s.Accumulating) (b : Byte) :
    ((accByte b s).1 = .cont ∧ s.SameDsp (accByte b s).2) ∨
    ((accByte b s).1 = .suspend ∧ (accByte b s).2.Holding) := by
  rcases accByte_cases b s with ⟨_, hacc⟩ | ⟨hheader, i, hi, hacc⟩ | ⟨_, _, _, hacc⟩ | ⟨_, _, _, hacc⟩ <;> rw [hacc]
  case inr.inl =>
    obtain ⟨h3, _, htail, hfirst⟩ := State.findTail_some hi
    have hscan := h.findTail_appendAcc b
    rw [hi] at hscan
    obtain ⟨_, hlast⟩ := Option.ite_none_right_eq_some.mp hscan.symm
    cases hlast
    exact dispatchAcc_ends (s := { s.appendAcc b with accLen := s.accLen + 1 }) (Nat.succ_le_succ h3) h.room hheader htail
      fun k hk hlt => hfirst k hk (Nat.lt_of_succ_lt_succ hlt)
  all_goals exact .inl ⟨rfl, rfl, rfl, rfl⟩

theorem State.Accumulating.loopTurn_ends {s : State} (h : s.Accumulating) :
    ((loopTurn s).1 = .cont ∧ s.SameDsp (loopTurn s).2) ∨ ((loopTurn s).1 = .suspend ∧ (loopTurn s).2.Holding) := by
  have hmoved : ({ s with feedPos := s.feedPos + 1 } : State).Accumulating := ⟨h.idle, h.room, h.fits, h.header, h.noTail⟩
  exact hmoved.accByte_ends (s.byteAt .rxbuf s.feedPos)

/-- The byte loop from `s` ends in `t`: it writes inside ACC, and it has used up its chunk with no dispatch, or holds a
dispatched frame. -/
structure State.LoopEnds (s t : State) : Prop where
  same : SameButRouter s t
  written : Memory.WrittenIn s.cfg .acc s.mem t.mem
  ends : (t.Accumulating ∧ s.SameDsp t ∧ t.feedPos = s.feedEnd) ∨ (t.Holding ∧ t.feedPos ≤ s.feedEnd)

theorem State.Accumulating.runTurns_ends (k : Nat) {s : State} (h : s.Accumulating) (hk : s.feedPos + k = s.feedEnd) :
    s.LoopEnds (runTurns k s) := by
  induction k generalizing s with
  | zero => exact ⟨rfl, .refl .., .inl ⟨h, ⟨rfl, rfl, rfl⟩, hk⟩⟩
  | succ k ih =>
    have hlt : s.feedPos < s.feedEnd := by omega
    have hwrite : Memory.WrittenIn s.cfg .acc s.mem (loopTurn s).2.mem := loopTurn_mem s ▸ .put s.mem _ h.room
    have hpos := loopTurn_feedPos s
    have hsame := loopTurn_same s
    have hready := h.loopTurn_stepsAs.continues
    have hends := h.loopTurn_ends
    rw [runTurns_succ k s hlt]
    rcases hl : loopTurn s with ⟨f, s'⟩
    rw [hl] at hwrite hpos hsame hready hends
    dsimp only at hwrite hpos hsame hready hends
    rcases hends with ⟨rfl, hdsp⟩ | ⟨rfl, hhold⟩
    · have hend := hsame.feedEnd
      obtain ⟨hsame', hwrite', hends'⟩ := ih (hready rfl) (by omega)
      rw [hend] at hends'
      exact ⟨hsame.trans hsame', hwrite.trans (hsame.cfg ▸ hwrite'),
        hends'.imp (fun ⟨hacc, hdsp', hdone⟩ => ⟨hacc, hdsp.trans hdsp', hdone⟩) id⟩
    · exact ⟨hsame, hwrite, .inr ⟨hhold, by dsimp only; omega⟩⟩

theorem State.Accumulating.runLoop_ends {s : State} (h : s.Accumulating) (hle : s.feedPos ≤ s.feedEnd) :
    s.LoopEnds (runLoop s) :=
  h.runTurns_ends _ (by omega)

/-! ### FEED and ACK -/

/-- FEED's loop starts on an accumulator that takes bytes. -/
theorem State.Inv.feed_ends {s : State} {n : Nat} (h : s.Inv) (hidle : s.phase = .idle) :
    State.LoopEnds { s with feedPos := s.rxOff, feedEnd := s.rxOff + n }
      (runLoop { s with feedPos := s.rxOff, feedEnd := s.rxOff + n }) := by
  obtain ⟨idle, room, fits, header, noTail⟩ := State.Accumulating.of_inv h hidle
  exact State.Accumulating.runLoop_ends ⟨idle, room, fits, header, noTail⟩ (Nat.le_add_right _ _)

/-- ACK's loop starts on an empty accumulator. -/
theorem State.Inv.ack_ends {s : State} (h : s.Inv) :
    State.LoopEnds { s with phase := .idle, accLen := 0 } (runLoop { s with phase := .idle, accLen := 0 }) := by
  obtain ⟨hsizes, _⟩ := (Config.wellFormed_iff _).mp h.config
  obtain ⟨⟨hleast, hmost⟩, _⟩ := (Config.sizesOk_iff _).mp hsizes
  obtain ⟨hcursors, _⟩ := h.cursors
  refine State.Accumulating.runLoop_ends ⟨rfl, ?_, hmost, fun h1 => ?_, fun k _ hk => ?_⟩ hcursors
  · show 0 < s.cfg.accCap
    omega
  · exact absurd h1 (by simp)
  · exact absurd hk (Nat.not_lt_zero k)

/-- What FEED and ACK can change at all: the router's registers, FEED_END, RC and RESULT. -/
def SameButFeed (s t : State) : Prop :=
  t = { s with mem := t.mem, accLen := t.accLen, feedPos := t.feedPos, feedEnd := t.feedEnd, phase := t.phase,
               dspType := t.dspType, dspLen := t.dspLen, dspOff := t.dspOff, rc := t.rc, result := t.result }

theorem SameButRouter.finishRouter_sameButFeed {s t : State} (h : SameButRouter s t) : SameButFeed s t.finishRouter := by
  unfold SameButFeed
  rw [show t = _ from h]
  rfl

theorem feedChunk_same (n : Nat) (s : State) : SameButFeed s (feedChunk n s) := by
  rcases Nat.lt_or_ge s.cfg.rxSize (s.rxOff + n) with hn | hn
  · rw [feedChunk_beyond hn]
    rfl
  · cases hp : s.cfg.policy with
    | accumulate =>
      rw [feedChunk_accumulate hn hp]
      exact (runLoop_same _).finishRouter_sameButFeed
    | wholeFrame =>
      rw [feedChunk_wholeFrame hn hp]
      exact (wholeFrame_same _).finishRouter_sameButFeed

theorem ackDispatch_same (s : State) : SameButFeed s (ackDispatch s) := by
  cases hp : s.cfg.policy with
  | accumulate =>
    rw [ackDispatch_accumulate hp]
    exact (runLoop_same _).finishRouter_sameButFeed
  | wholeFrame =>
    rw [ackDispatch_wholeFrame hp]
    rfl

/-! ## What a command can do (30_encoding.md R104; 60_exceptions.md R260) -/

/-- The buffer a command may write (10_state.md R29, R34, R37, R38, R39). -/
def target : Instr → Option Buffer
  | .feed _ | .ack => some .acc
  | .pop _ => some .rbuf
  | .prepare _ _ | .prepareRsp _ _ => some .txbuf
  | .psetByte _ _ | .psetBit _ _ | .put16 _ | .put32 _ => some .pbuf
  | .push | .count | .cstatus _ | .valreq _ _ | .valrsp _ _ | .pcalcByte _ _ | .pchkByte _ _ | .pcalcBit _ _ | .pchkBit _ _
  | .pcalcNone | .pchkNone | .psetNone | .get16 _ | .get32 _ => none

/-- The commands of the codec toolkit, COUNT and CSTATUS: they execute in both phases and leave the router and the queue
alone. -/
def calculates : Instr → Bool
  | .feed _ | .ack | .push | .pop _ | .prepare _ _ | .prepareRsp _ _ => false
  | .count | .cstatus _ | .valreq _ _ | .valrsp _ _ | .pcalcByte _ _ | .pchkByte _ _ | .psetByte _ _ | .pcalcBit _ _
  | .pchkBit _ _ | .psetBit _ _ | .pcalcNone | .pchkNone | .psetNone | .get16 _ | .get32 _ | .put16 _ | .put32 _ => true

theorem acceptedIn_of_calculates {i : Instr} (h : calculates i = true) (p : Phase) : acceptedIn i p = true := by
  cases i with
  | feed | ack | push | pop | prepare | prepareRsp => cases h
  | count | cstatus | valreq | valrsp | pcalcByte | pchkByte | psetByte | pcalcBit | pchkBit | psetBit | pcalcNone | pchkNone
  | psetNone | get16 | get32 | put16 | put32 => rfl

/-- The states a command can leave: the refusal, the router's and the queue's commands by name, a preparation, a write of PBUF,
or an end that changes RC and RESULT only. -/
inductive Effect (s : State) : Instr → State → Prop
  | refused {i : Instr} (hphase : acceptedIn i s.phase = false) : Effect s i s.rejectSeq
  | feed (n : Nat) (hphase : s.phase = .idle) : Effect s (.feed n) (feedChunk n s)
  | ack (hphase : s.phase = .dispatch) : Effect s .ack (ackDispatch s)
  | push : Effect s .push (pushFrame s)
  | pop (n : Nat) (hphase : s.phase = .idle) : Effect s (.pop n) (popFrame n s)
  | prepare {i : Instr} (tx : List Byte) (c : Handshake) (consumed : Bool) (hi : target i = some .txbuf)
      (hacc : acceptedIn i s.phase = true) (hfit : tx.length ≤ s.cfg.txSize) : Effect s i (s.finishPrepare tx c consumed)
  | writes {i : Instr} (k : Nat) (vs : List Byte) (v : Word) (hc : calculates i = true) (hi : target i = some .pbuf)
      (hfit : k + vs.length ≤ s.pbufLen) : Effect s i ((s.putBytes .pbuf k vs).finishOk v)
  | ends {i : Instr} (rc : ResultCode) (v : Word) (hc : calculates i = true) (hv : rc ≠ .ok → v = 0#32) :
      Effect s i (s.finish rc v)

theorem Effect.endsOk {s : State} {i : Instr} (v : Word) (hc : calculates i = true) :
    Effect s i (s.finishOk v) :=
  .ends .ok v hc (absurd rfl)

theorem Effect.fails {s : State} {i : Instr} (rc : ResultCode) (hc : calculates i = true) :
    Effect s i (s.fail rc) :=
  .ends rc 0#32 hc fun _ => rfl

/-- A command of one phase has the effect of its run in it, and is refused in the other. -/
theorem onlyIn_effect {i : Instr} {p : Phase} {s t : State} {run : State → State}
    (hacc : ∀ q, acceptedIn i q = (q == p)) (hrun : s.phase = p → Effect s i (run s)) (h : onlyIn p s run = .next t) :
    Effect s i t := by
  rcases onlyIn_cases h with ⟨hp, rfl⟩ | ⟨hp, rfl⟩
  · exact hrun hp
  · exact .refused ((hacc s.phase).trans (beq_eq_false_iff_ne.mpr hp))

theorem prepareTx_effect {i : Instr} {s : State} (hi : target i = some .txbuf) (hacc : acceptedIn i s.phase = true)
    (b : Byte) (n : Nat) (rsp : Option (List Byte)) : Effect s i (prepareTx b n rsp s) := by
  rcases prepareTx_cases b n rsp s with ⟨_, h⟩ | ⟨_, hn, _, f, _, hf, h⟩ | ⟨_, hn, _, _, h⟩ <;> rw [h]
  · exact .prepare _ _ _ hi hacc (by simp)
  · exact .prepare _ _ _ hi hacc (by simp; omega)
  · exact .prepare _ _ _ hi hacc (by simpa using hn)

theorem validateFrame_effect {i : Instr} {s : State} (hc : calculates i = true) (hdr tail ty : Byte) (l : Nat) :
    Effect s i (validateFrame hdr tail ty l s) := by
  rcases validateFrame_cases hdr tail ty l s with ⟨_, h⟩ | ⟨_, _, _, h⟩ | ⟨_, _, _, _, _, h⟩ <;> rw [h]
  · exact .fails _ hc
  · exact .fails _ hc
  · exact .endsOk _ hc

theorem withParityArgs_effect {i : Instr} {s : State} {last pidx : Nat} {run : State → State}
    (hc : calculates i = true) (hrun : pidx + 1 < s.pbufLen → Effect s i (run s)) :
    Effect s i (withParityArgs last pidx run s) := by
  rcases withParityArgs_cases last pidx run s with ⟨hargs, h⟩ | ⟨_, h⟩ <;> rw [h]
  · obtain ⟨_, _, hpidx⟩ := (s.parityArgsOk_iff last pidx).mp hargs
    exact hrun hpidx
  · exact .fails _ hc

theorem withBeArgs_effect {i : Instr} {s : State} {off w : Nat} {run : State → State} (hc : calculates i = true)
    (hrun : off + w ≤ s.pbufLen → Effect s i (run s)) : Effect s i (withBeArgs off w run s) := by
  rcases withBeArgs_cases off w run s with ⟨hargs, h⟩ | ⟨_, h⟩ <;> rw [h]
  · exact hrun ((s.beArgsOk_iff off w).mp hargs)
  · exact .fails _ hc

/-- A parity check ends with OK or with PARITY. -/
theorem parityCheck_effect {i : Instr} {s : State} (hc : calculates i = true) (p : Prop) [Decidable p] (v : Word) :
    Effect s i (if p then s.finishOk v else s.fail .parity) := by
  split
  · exact .endsOk v hc
  · exact .fails _ hc

/-- A one-byte write of PBUF below its last byte in use. -/
theorem putByte_effect {i : Instr} {s : State} (hc : calculates i = true) (hi : target i = some .pbuf) {k : Nat}
    (hk : k + 1 < s.pbufLen) (b : Byte) (v : Word) : Effect s i ((s.putByte .pbuf k b).finishOk v) :=
  .writes k [b] v hc hi (Nat.le_of_lt hk)

theorem exec_effect {i : Instr} {s t : State} (h : exec i s = .next t) : Effect s i t := by
  cases i with
  | feed n => exact onlyIn_effect (fun _ => rfl) (.feed n) h
  | ack => exact onlyIn_effect (fun _ => rfl) .ack h
  | push => exact inBoth_cases h ▸ .push
  | pop n => exact onlyIn_effect (fun _ => rfl) (.pop n) h
  | prepare b n | prepareRsp b n =>
    exact onlyIn_effect (fun _ => rfl) (fun hp => prepareTx_effect rfl (by rw [hp]; rfl) b n _) h
  | valreq ty l | valrsp ty l => exact inBoth_cases h ▸ validateFrame_effect rfl _ _ ty l
  | count | cstatus | pcalcNone | pchkNone | psetNone =>
    cases h
    exact .endsOk _ rfl
  | pcalcByte last pidx | pcalcBit last pidx =>
    exact inBoth_cases h ▸ withParityArgs_effect rfl fun _ => .endsOk _ rfl
  | pchkByte last pidx | pchkBit last pidx =>
    exact inBoth_cases h ▸ withParityArgs_effect rfl fun _ => parityCheck_effect rfl _ _
  | psetByte last pidx | psetBit last pidx =>
    exact inBoth_cases h ▸ withParityArgs_effect rfl fun hp => putByte_effect rfl rfl hp _ _
  | get16 off | get32 off =>
    exact inBoth_cases h ▸ withBeArgs_effect rfl fun _ => .endsOk _ rfl
  | put16 off | put32 off =>
    exact inBoth_cases h ▸ withBeArgs_effect rfl fun hp => .writes off _ _ rfl rfl hp

/-! ### The registers no command writes (10_state.md R44) -/

/-- `t` has the registers of `s` that only the host writes, its ILLCMD, and the model's own port. Where all parts hold by
definition, `{}` proves it. -/
structure State.SameHost (s t : State) : Prop where
  data : t.data = s.data := by rfl
  hen : t.hen = s.hen := by rfl
  rxOff : t.rxOff = s.rxOff := by rfl
  pbufLen : t.pbufLen = s.pbufLen := by rfl
  illCmd : t.illCmd = s.illCmd := by rfl
  pending : t.pending = s.pending := by rfl
  response : t.response = s.response := by rfl

theorem SameButFeed.host {s t : State} (h : SameButFeed s t) : s.SameHost t := by
  rw [show t = _ from h]
  exact {}

theorem SameButFeed.seqErr {s t : State} (h : SameButFeed s t) : t.seqErr = s.seqErr := by
  rw [show t = _ from h]

/-- What PUSH can change at all. -/
theorem pushFrame_same (s : State) : pushFrame s =
    { s with slots := (pushFrame s).slots, qCount := (pushFrame s).qCount, rc := (pushFrame s).rc,
             result := (pushFrame s).result } := by
  rcases pushFrame_cases s with ⟨_, h⟩ | ⟨_, _, h⟩ | ⟨_, _, _, h⟩ <;> rw [h] <;> rfl

/-- What POP can change at all. -/
theorem popFrame_same (c : Nat) (s : State) : popFrame c s =
    { s with mem := (popFrame c s).mem, rspLen := (popFrame c s).rspLen, qHead := (popFrame c s).qHead,
             qCount := (popFrame c s).qCount, rc := (popFrame c s).rc, result := (popFrame c s).result } := by
  rcases popFrame_cases c s with ⟨_, h⟩ | ⟨_, _, h⟩ | ⟨_, _, _, h⟩ | ⟨_, _, _, h⟩ <;> rw [h] <;> rfl

/-- A refused command sets SEQERR, an executed one leaves it. -/
theorem Effect.host {s t : State} {i : Instr} (h : Effect s i t) :
    s.SameHost t ∧ (t.seqErr = s.seqErr ∨ (acceptedIn i s.phase = false ∧ t.seqErr = true)) := by
  cases h with
  | refused hphase => exact ⟨{}, .inr ⟨hphase, rfl⟩⟩
  | feed n => exact ⟨(feedChunk_same n s).host, .inl (feedChunk_same n s).seqErr⟩
  | ack => exact ⟨(ackDispatch_same s).host, .inl (ackDispatch_same s).seqErr⟩
  | push => rw [pushFrame_same]; exact ⟨{}, .inl rfl⟩
  | pop n => rw [popFrame_same]; exact ⟨{}, .inl rfl⟩
  | prepare | writes | ends => exact ⟨{}, .inl rfl⟩

/-- Settles O18: every command has a next state, and none of its effects reaches a host register. -/
theorem noCommandWritesTheHostRegisters : Obligations.NoCommandWritesTheHostRegisters := by
  intro i s
  obtain ⟨t, ht⟩ := exec_next i s
  obtain ⟨⟨hdata, hhen, hrx, hpbuf, hill, hpending, hresponse⟩, hseq⟩ := (exec_effect ht).host
  refine ⟨t, ht, hdata, hhen, hrx, hpbuf, hill, hpending, hresponse, fun hacc => ?_⟩
  rcases hseq with hseq | ⟨hrefused, _⟩
  · exact hseq
  · simp [hacc] at hrefused

/-! ### RC and RESULT (10_state.md R24, R25) -/

/-- A router command ends with OK, or fails with RESULT = 0. -/
theorem feedChunk_error {n : Nat} {s : State} (h : (feedChunk n s).rc ≠ .ok) : (feedChunk n s).result = 0#32 := by
  rcases Nat.lt_or_ge s.cfg.rxSize (s.rxOff + n) with hn | hn
  · rw [feedChunk_beyond hn]
    rfl
  · refine absurd ?_ h
    cases hp : s.cfg.policy with
    | accumulate => rw [feedChunk_accumulate hn hp]; rfl
    | wholeFrame => rw [feedChunk_wholeFrame hn hp]; rfl

theorem ackDispatch_rc (s : State) : (ackDispatch s).rc = .ok := by
  cases hp : s.cfg.policy with
  | accumulate => rw [ackDispatch_accumulate hp]; rfl
  | wholeFrame => rw [ackDispatch_wholeFrame hp]; rfl

theorem pushFrame_error {s : State} (h : (pushFrame s).rc ≠ .ok) : (pushFrame s).result = 0#32 := by
  rcases pushFrame_cases s with ⟨_, hp⟩ | ⟨_, _, hp⟩ | ⟨_, _, _, hp⟩ <;> rw [hp] at h ⊢
  · rfl
  · rfl
  · exact absurd rfl h

theorem popFrame_error {c : Nat} {s : State} (h : (popFrame c s).rc ≠ .ok) : (popFrame c s).result = 0#32 := by
  rcases popFrame_cases c s with ⟨_, hp⟩ | ⟨_, _, hp⟩ | ⟨_, _, _, hp⟩ | ⟨_, _, _, hp⟩ <;> rw [hp] at h ⊢
  · rfl
  · exact absurd rfl h
  · rfl
  · exact absurd rfl h

/-- Every effect but the refusal is one of an accepted command. -/
theorem Effect.accepted_or_refused {s t : State} {i : Instr} (h : Effect s i t) :
    (acceptedIn i s.phase = true ∧ (t.rc ≠ .ok → t.result = 0#32)) ∨
    (acceptedIn i s.phase = false ∧ t = s.rejectSeq) := by
  cases h with
  | refused hphase => exact .inr ⟨hphase, rfl⟩
  | feed n hphase => exact .inl ⟨by rw [hphase]; rfl, feedChunk_error⟩
  | ack hphase => exact .inl ⟨by rw [hphase]; rfl, fun h => absurd (ackDispatch_rc s) h⟩
  | push => exact .inl ⟨rfl, pushFrame_error⟩
  | pop n hphase => exact .inl ⟨by rw [hphase]; rfl, popFrame_error⟩
  | prepare _ _ _ _ hacc => exact .inl ⟨hacc, absurd rfl⟩
  | writes _ _ _ hc => exact .inl ⟨acceptedIn_of_calculates hc _, absurd rfl⟩
  | ends _ _ hc hv => exact .inl ⟨acceptedIn_of_calculates hc _, hv⟩

/-- Settles O15: an executed command's effect, and the refusal's. -/
theorem errorsZeroTheResult : Obligations.ErrorsZeroTheResult := by
  intro i s t h
  rcases (exec_effect h).accepted_or_refused with ⟨hacc, herr⟩ | ⟨hacc, rfl⟩
  · exact ⟨fun _ => herr, fun hrefused => absurd (hacc.symm.trans hrefused) (by decide)⟩
  · exact ⟨fun haccepted => absurd (hacc.symm.trans haccepted) (by decide), fun _ => ⟨rfl, rfl⟩⟩

/-! ## The ring's bounds (10_state.md R35) -/

theorem State.slot_mem {s : State} {k : Nat} (h : k < s.slots.length) : s.slot k ∈ s.slots := by
  rw [State.slot, List.getD_eq_getElem _ _ h]
  exact List.getElem_mem h

theorem State.slotIndex_zero {s : State} (h : s.qHead < s.cfg.qDepth) : s.slotIndex 0 = s.qHead := Nat.mod_eq_of_lt h

/-- Entry e after a release is the entry e + 1 before it. -/
theorem State.slotIndex_dequeue (s : State) (e : Nat) : s.dequeue.slotIndex e = s.slotIndex (e + 1) := by
  simp only [State.slotIndex, State.dequeue_qHead, State.dequeue_cfg, Nat.mod_add_mod]
  congr 1
  omega

/-- The oldest entry of a queue in order: its frame has its length, at least 1. -/
theorem State.QueueBounded.front {s : State} (h : s.QueueBounded) (hne : s.qCount ≠ 0) :
    (s.slot s.qHead).frame.length = (s.slot s.qHead).len ∧ 1 ≤ (s.slot s.qHead).len := by
  obtain ⟨hhead, _, hlength, hslots, hleast⟩ := h
  obtain ⟨hdata, hlen⟩ := hslots _ (s.slot_mem (hlength ▸ hhead))
  refine ⟨by simp only [Slot.frame, List.length_take]; omega, ?_⟩
  have hfirst := hleast 0 (Nat.pos_of_ne_zero hne)
  rwa [State.slotIndex_zero hhead] at hfirst

theorem State.QueueBounded.enqueue {s : State} (h : s.QueueBounded) {f : List Byte} (hne : f.length ≠ 0)
    (hmax : f.length ≤ s.cfg.qFrameMax) (hroom : s.qCount ≠ s.cfg.qDepth) : (s.enqueue f).QueueBounded := by
  obtain ⟨hhead, hcount, hlength, hslots, hleast⟩ := h
  have hk : (s.qHead + s.qCount) % s.cfg.qDepth < s.slots.length := by
    rw [hlength]
    exact Nat.mod_lt _ (by omega)
  refine ⟨hhead, ?_, ?_, fun q hq => ?_, fun e he => ?_⟩
  · simp only [State.enqueue_qCount, State.enqueue_cfg]
    omega
  · simpa using hlength
  · rcases List.mem_or_eq_of_mem_set hq with hq | rfl
    · exact hslots q hq
    · obtain ⟨hdata, _⟩ := hslots _ (s.slot_mem hk)
      refine ⟨?_, hmax⟩
      simp only [Slot.store, List.length_append, List.length_drop, State.enqueue_cfg]
      omega
  · rw [State.slot_enqueue s f _ hk]
    split
    · exact Nat.pos_of_ne_zero hne
    · next hother =>
      have hlt : e ≠ s.qCount := fun heq => hother (heq ▸ rfl)
      have he' : e < s.qCount + 1 := he
      exact hleast e (by omega)

theorem State.QueueBounded.dequeue {s : State} (h : s.QueueBounded) : s.dequeue.QueueBounded := by
  obtain ⟨hhead, hcount, hlength, hslots, hleast⟩ := h
  refine ⟨Nat.mod_lt _ (Nat.zero_lt_of_lt hhead), Nat.le_trans (Nat.sub_le ..) hcount, hlength, hslots, fun e he => ?_⟩
  rw [State.slotIndex_dequeue]
  exact hleast (e + 1) (by simp only [State.dequeue_qCount] at he; omega)

/-! ## Every command keeps the invariant (10_state.md R45) -/

theorem State.Inv.accLen_le {s : State} (h : s.Inv) : s.accLen ≤ s.cfg.accCap := by
  obtain ⟨hidle, hdispatch, hwhole⟩ := h.accBounded
  cases hp : s.phase with
  | idle => exact Nat.le_of_lt (hidle hp)
  | dispatch =>
    cases hpol : s.cfg.policy with
    | accumulate =>
      obtain ⟨_, hlen, hle⟩ := hdispatch hpol hp
      exact hlen ▸ hle
    | wholeFrame => exact hwhole hpol ▸ Nat.zero_le _

/-- A write inside a buffer other than ACC keeps the invariant. -/
theorem State.Inv.write {s : State} (h : s.Inv) {b : Buffer} {m : Memory} (hb : b ≠ .acc)
    (hw : Memory.WrittenIn s.cfg b s.mem m) : ({ s with mem := m } : State).Inv := by
  have hcap : s.cfg.accCap ≤ 4096 := Buffer.size_le h.config .acc
  have hacc : ∀ k, k < 4096 → m.get (Buffer.start .acc + k) = s.byteAt .acc k := fun k hk =>
    hw.get_other h.config hb.symm hk
  refine { h with
    canonical := hw.wf h.canonical
    inside := hw.inside h.inside
    accHeader := fun h1 => (hacc 0 (by omega)).trans (h.accHeader h1)
    accNoTail := fun k hlt hk htail => h.accNoTail k hlt hk ((hacc k ?_).symm.trans htail)
    accClosed := fun hp hd => (hacc _ ?_).trans (h.accClosed hp hd) }
  · have hle := h.accLen_le
    have hlt' : k < s.accLen := hlt
    omega
  · obtain ⟨_, hdispatch, _⟩ := h.accBounded
    obtain ⟨_, _, hle⟩ := hdispatch hp hd
    show s.dspLen - 1 < 4096
    omega

/-- The parts of the invariant that speak of the router. -/
structure State.RouterInv (s : State) : Prop where
  accBounded : s.AccBounded
  accHeader : s.AccHeader
  accNoTail : s.AccNoTail
  accClosed : s.AccClosed
  latched : s.FrameLatched
  cursors : s.CursorsBounded

/-- An accumulator that takes bytes, after a chunk is used up. -/
theorem State.Accumulating.routerInv {s : State} (h : s.Accumulating) (hp : s.cfg.policy = .accumulate) (hoff : s.dspOff = 0)
    (hlen : s.dspLen ≤ s.cfg.accCap) (hpos : s.feedPos = s.feedEnd) (hend : s.feedEnd ≤ s.cfg.rxSize) : s.RouterInv := by
  have hidle : s.phase ≠ .dispatch := by rw [h.idle]; decide
  have hpol : s.cfg.policy ≠ .wholeFrame := by rw [hp]; decide
  exact {
    accBounded := ⟨fun _ => h.room, fun _ hd => absurd hd hidle, fun hw => absurd hw hpol⟩
    accHeader := h.header
    accNoTail := fun k hlt hk htail => absurd htail (h.noTail k hk hlt)
    accClosed := fun _ hd => absurd hd hidle
    latched := ⟨fun _ => ⟨hoff, hlen⟩, fun hw => absurd hw hpol, fun hd => absurd hd hidle⟩
    cursors := ⟨Nat.le_of_eq hpos, hend, fun _ => hpos, fun _ => hpos⟩ }

/-- A dispatched frame, with the rest of the chunk waiting. -/
theorem State.Holding.routerInv {s : State} (h : s.Holding) (hp : s.cfg.policy = .accumulate) (hpos : s.feedPos ≤ s.feedEnd)
    (hend : s.feedEnd ≤ s.cfg.rxSize) : s.RouterInv := by
  have hdispatch : s.phase ≠ .idle := by rw [h.dispatch]; decide
  have hpol : s.cfg.policy ≠ .wholeFrame := by rw [hp]; decide
  have hlast : ∀ k, k < s.accLen → 3 ≤ k → s.byteAt .acc k = reqTail → k + 1 = s.accLen := fun k hlt hk htail => by
    by_contra hne
    exact h.noTail k hk (by omega) htail
  have hfits : s.dspLen ≤ s.cfg.accCap := h.len ▸ h.fits
  exact {
    accBounded := ⟨fun hi => absurd hi hdispatch, fun _ _ => ⟨h.least, h.len.symm, hfits⟩, fun hw => absurd hw hpol⟩
    accHeader := fun _ => h.header
    accNoTail := fun k hlt hk htail => ⟨hlast k hlt hk htail, h.dispatch, hp⟩
    accClosed := fun _ _ => h.len ▸ h.tail
    latched := ⟨fun _ => ⟨h.off, hfits⟩, fun hw => absurd hw hpol, fun _ => h.len ▸ h.least⟩
    cursors := ⟨hpos, hend, fun hi => absurd hi hdispatch, fun hw => absurd hw hpol⟩ }

/-- A byte loop that starts on the registers of a state in order leaves a state in order. -/
theorem State.Inv.of_loopEnds {s t : State} {ph : Phase} {l p e : Nat} (h : s.Inv) (hp : s.cfg.policy = .accumulate)
    (he : e ≤ s.cfg.rxSize)
    (hloop : State.LoopEnds { s with phase := ph, accLen := l, feedPos := p, feedEnd := e } t) : t.Inv := by
  obtain ⟨hsame, hwritten, hends⟩ := hloop
  have hcfg : t.cfg = s.cfg := hsame.cfg
  have hend : t.feedEnd = e := hsame.feedEnd
  have hpol : t.cfg.policy = .accumulate := hcfg ▸ hp
  have hrx : t.feedEnd ≤ t.cfg.rxSize := by rw [hend, hcfg]; exact he
  have hrouter : t.RouterInv := by
    rcases hends with ⟨hacc, ⟨_, hlen, hoff⟩, hpos⟩ | ⟨hhold, hpos⟩
    · obtain ⟨hlatched, _, _⟩ := h.latched
      obtain ⟨hoff', hlen'⟩ := hlatched hp
      have hfits : t.dspLen ≤ t.cfg.accCap := by rw [hcfg, hlen]; exact hlen'
      exact hacc.routerInv hpol (hoff.trans hoff') hfits (hpos.trans hend.symm) hrx
    · exact hhold.routerInv hpol (hend ▸ hpos) hrx
  exact { hrouter with
    config := hcfg ▸ h.config
    canonical := hwritten.wf h.canonical
    inside := fun cell hc => by rw [hcfg]; exact hwritten.inside h.inside cell hc
    queue := by rw [show t = _ from hsame]; exact h.queue
    lengths := by rw [show t = _ from hsame]; exact h.lengths
    handlers := by rw [show t = _ from hsame]; exact h.handlers }

/-- Ending a command changes nothing the invariant speaks of. -/
theorem State.Inv.finish {s : State} (h : s.Inv) (rc : ResultCode) (v : Word) : (s.finish rc v).Inv := { h with }

/-- A chunk taken whole: the cursors meet at its end, and a dispatch latches a frame inside RXBUF. -/
theorem State.Inv.wholeFrame {s : State} {p e : Nat} (h : s.Inv) (hpol : s.cfg.policy = .wholeFrame) (hpe : p ≤ e)
    (he : e ≤ s.cfg.rxSize) : (wholeFrame { s with feedPos := p, feedEnd := e }).Inv := by
  have hnotAcc : s.cfg.policy ≠ .accumulate := by rw [hpol]; decide
  obtain ⟨_, _, hzero⟩ := h.accBounded
  rcases wholeFrame_cases { s with feedPos := p, feedEnd := e } with ⟨hframe, _, hw⟩ | ⟨_, hw⟩ <;> rw [hw]
  · obtain ⟨h4, _, _⟩ := (State.chunkIsFrame_iff _).mp hframe
    exact { h with
      accBounded := ⟨nofun, fun ha => absurd ha hnotAcc, hzero⟩
      accNoTail := fun k hlt => absurd (hzero hpol ▸ hlt : k < 0) (Nat.not_lt_zero k)
      accClosed := fun ha => absurd ha hnotAcc
      latched := ⟨fun ha => absurd ha hnotAcc, fun _ => by dsimp only; omega, fun _ => h4⟩
      cursors := ⟨Nat.le_refl e, he, fun _ => rfl, fun _ => rfl⟩ }
  · exact { h with cursors := ⟨Nat.le_refl e, he, fun _ => rfl, fun _ => rfl⟩ }

theorem State.Inv.feedChunk {s : State} (h : s.Inv) (hidle : s.phase = .idle) (n : Nat) : (feedChunk n s).Inv := by
  rcases Nat.lt_or_ge s.cfg.rxSize (s.rxOff + n) with hn | hn
  · rw [feedChunk_beyond hn]
    exact h.finish _ _
  · cases hp : s.cfg.policy with
    | accumulate =>
      rw [feedChunk_accumulate hn hp]
      exact (h.of_loopEnds hp hn (h.feed_ends hidle)).finish _ _
    | wholeFrame =>
      rw [feedChunk_wholeFrame hn hp]
      exact (h.wholeFrame hp (Nat.le_add_right ..) hn).finish _ _

theorem State.Inv.ackDispatch {s : State} (h : s.Inv) : (ackDispatch s).Inv := by
  obtain ⟨hpos, hend, _, hwhole⟩ := h.cursors
  cases hp : s.cfg.policy with
  | accumulate =>
    rw [ackDispatch_accumulate hp]
    exact (h.of_loopEnds hp hend h.ack_ends).finish _ _
  | wholeFrame =>
    rw [ackDispatch_wholeFrame hp]
    have hnotAcc : s.cfg.policy ≠ .accumulate := by rw [hp]; decide
    obtain ⟨_, _, hzero⟩ := h.accBounded
    obtain ⟨_, hlatched, _⟩ := h.latched
    obtain ⟨hsizes, _⟩ := (Config.wellFormed_iff _).mp h.config
    obtain ⟨⟨hcap, _⟩, _⟩ := (Config.sizesOk_iff _).mp hsizes
    have hidle : ({ s with phase := .idle } : State).Inv := { h with
      accBounded := ⟨fun _ => by show s.accLen < s.cfg.accCap; rw [hzero hp]; omega, fun ha => absurd ha hnotAcc, hzero⟩
      accNoTail := fun k hlt => absurd (hzero hp ▸ hlt : k < 0) (Nat.not_lt_zero k)
      accClosed := fun ha => absurd ha hnotAcc
      latched := ⟨fun ha => absurd ha hnotAcc, hlatched, nofun⟩
      cursors := ⟨hpos, hend, fun _ => hwhole hp, hwhole⟩ }
    exact hidle.finish _ _

theorem State.Inv.pushFrame {s : State} (h : s.Inv) : (pushFrame s).Inv := by
  rcases pushFrame_cases s with ⟨_, hp⟩ | ⟨_, _, hp⟩ | ⟨hne, hroom, hmax, hp⟩ <;> rw [hp]
  · exact h.finish _ _
  · exact h.finish _ _
  · have hstored : (s.enqueue (s.bytesOf .pbuf s.pbufLen)).Inv :=
      { h with queue := h.queue.enqueue (by simpa using hne) (by simpa using hmax) hroom }
    exact hstored.finish _ _

/-- A new RSP_LEN inside RBUF keeps the invariant. -/
theorem State.Inv.rspLen {s : State} (h : s.Inv) {n : Nat} (hn : n ≤ s.cfg.rbufSize) :
    ({ s with rspLen := n } : State).Inv := by
  obtain ⟨hpbuf, _, htx, hrx⟩ := h.lengths
  exact { h with lengths := ⟨hpbuf, hn, htx, hrx⟩ }

theorem State.Inv.dequeue {s : State} (h : s.Inv) : s.dequeue.Inv := { h with queue := h.queue.dequeue }

theorem State.Inv.popFrame {s : State} (h : s.Inv) (c : Nat) : (popFrame c s).Inv := by
  rcases popFrame_cases c s with ⟨_, hp⟩ | ⟨_, _, hp⟩ | ⟨_, _, _, hp⟩ | ⟨hc, hne, hlen, hp⟩ <;> rw [hp]
  · exact h.finish _ _
  · exact (h.rspLen (Nat.zero_le _)).finish _ _
  · exact (h.rspLen (Nat.zero_le _)).finish _ _
  · obtain ⟨hframe, _⟩ := h.queue.front hne
    have hfit : 0 + (s.slot s.qHead).frame.length ≤ Buffer.size s.cfg .rbuf := by
      show _ ≤ s.cfg.rbufSize
      omega
    have hcopied := (h.write (b := .rbuf) nofun (.putBytes s.mem hfit)).rspLen (Nat.le_trans hlen hc)
    exact hcopied.dequeue.finish _ _

theorem State.Inv.finishPrepare {s : State} (h : s.Inv) {tx : List Byte} (hfit : tx.length ≤ s.cfg.txSize) (c : Handshake)
    (consumed : Bool) : (s.finishPrepare tx c consumed).Inv := by
  have hsent := h.write (b := .txbuf) nofun (.putBytes s.mem (i := 0) (by simpa [Buffer.size] using hfit))
  obtain ⟨hpbuf, hrbuf, _, hrx⟩ := h.lengths
  exact State.Inv.finish (s := { s.putBytes .txbuf 0 tx with txLen := tx.length })
    { hsent with lengths := ⟨hpbuf, hrbuf, hfit, hrx⟩ } _ _

theorem State.Inv.effect {s t : State} {i : Instr} (h : s.Inv) (he : Effect s i t) : t.Inv := by
  cases he with
  | refused => exact { h with }
  | feed n hidle => exact h.feedChunk hidle n
  | ack => exact h.ackDispatch
  | push => exact h.pushFrame
  | pop n => exact h.popFrame n
  | prepare _ c consumed _ _ hfit => exact h.finishPrepare hfit c consumed
  | writes k vs v _ _ hfit =>
    obtain ⟨hpbuf, _⟩ := h.lengths
    exact State.Inv.finish (h.write (b := .pbuf) nofun (.putBytes s.mem (Nat.le_trans hfit hpbuf))) _ _
  | ends => exact h.finish _ _

/-! ## What a step can do (20_memory.md R66, R70) -/

theorem csrAt_zero : csrAt 0 = some .cmd := rfl

theorem csrAt_cmd {off : Nat} (h : csrAt off = some .cmd) : off = 0 := by
  unfold csrAt at h
  split at h <;> first | rfl | cases h

theorem csrAt_status {off : Nat} (h : csrAt off = some .status) : off = 0x008 := by
  unfold csrAt at h
  split at h <;> first | rfl | cases h

/-- A step does nothing, resets, runs the command it is sent, or serves another access: an illegal command word, an access that
changes only the answer, a byte write of PBUF, RBUF or RXBUF, or a CSR write. -/
inductive Served (s : State) : State → Prop
  | nothing (hp : s.pending = []) : Served s s
  | reset (rest : List Access) (hp : s.pending = .reset :: rest) : Served s { s with pending := rest }.resetEvent
  | command (a : Access) (rest : List Access) (i : Instr) (t : State) (hp : s.pending = a :: rest)
      (hi : s.nextCommand = some i) (he : Effect { s with pending := rest, response := .done } i t) : Served s t
  | illegal (a : Access) (rest : List Access) (hp : s.pending = a :: rest) (hi : s.nextCommand = none) :
      Served s { s with pending := rest, response := .done, illCmd := true }
  | answered (a : Access) (rest : List Access) (r : Response) (hp : s.pending = a :: rest) (hi : s.nextCommand = none) :
      Served s { s with pending := rest, response := r }
  | byteWrite (a : Access) (rest : List Access) (b : Buffer) (k : Nat) (v : Byte) (hp : s.pending = a :: rest)
      (hi : s.nextCommand = none) (hb : b ≠ .acc) (hk : k < b.size s.cfg) :
      Served s ({ s with pending := rest, response := .done }.putByte b k v)
  | csrWrite (rest : List Access) (off : Nat) (w : Word) (c : Csr) (hp : s.pending = .write32 (s.cfg.base + off) w :: rest)
      (hi : s.nextCommand = none) (hc : csrAt off = some c) :
      Served s ({ s with pending := rest, response := .done }.writeCsr w c)

/-- Only a 32-bit write issues a command. -/
theorem State.nextCommand_of_not_write32 {s : State} {a : Access} {rest : List Access} (hp : s.pending = a :: rest)
    (ha : ∀ addr w, a ≠ .write32 addr w) : s.nextCommand = none := by
  cases a with
  | write32 addr w => exact absurd rfl (ha addr w)
  | read | write8 | write16 | reset => simp [State.nextCommand, State.nextWord, hp]

/-- Only a 32-bit write to CMD issues a command. -/
theorem State.nextCommand_of_other_csr {s : State} {addr off : Nat} {w : Word} {rest : List Access}
    (hp : s.pending = .write32 addr w :: rest) (ho : offsetOf s.cfg addr = some off) (hc : csrAt off ≠ some .cmd) :
    s.nextCommand = none := by
  have h0 : off ≠ 0 := fun h => hc (h ▸ csrAt_zero)
  simp [State.nextCommand, State.nextWord, hp, ho, h0]

/-- A 32-bit write to CMD issues the command its word decodes to. -/
theorem State.nextCommand_of_cmd {s : State} {addr : Nat} {w : Word} {rest : List Access}
    (hp : s.pending = .write32 addr w :: rest) (ho : offsetOf s.cfg addr = some 0) :
    s.nextCommand = (decode w).toOption := by
  simp [State.nextCommand, State.nextWord, hp, ho]

theorem served_of_write32 {s t : State} {addr off : Nat} {w : Word} {rest : List Access}
    (hp : s.pending = .write32 addr w :: rest) (ho : offsetOf s.cfg addr = some off)
    (h : busWrite32 off w { s with pending := rest } = .next t) : Served s t := by
  rcases busWrite32_cases off w { s with pending := rest } with ⟨hc, hw⟩ | ⟨c, hc, hne, hw⟩ | ⟨hc, hw⟩ <;> rw [hw] at h
  · have hcmd := State.nextCommand_of_cmd hp (csrAt_cmd hc ▸ ho)
    rcases executeCommand_cases w ({ s with pending := rest }.answer .done) with ⟨e, hd, hx⟩ | ⟨i, hd, hx⟩ <;> rw [hx] at h
    · cases h
      exact .illegal _ rest hp (by rw [hcmd, hd]; rfl)
    · exact .command _ rest i t hp (by rw [hcmd, hd]; rfl) (exec_effect h)
  · cases h
    obtain ⟨rfl, _⟩ := offsetOf_some ho
    exact .csrWrite rest off w c hp (State.nextCommand_of_other_csr hp ho (by simpa [hc] using hne)) hc
  · cases h
    exact .answered _ rest .busError hp (State.nextCommand_of_other_csr hp ho (by simp [hc]))

theorem served_of_write8 {s : State} {addr off : Nat} {v : Byte} {rest : List Access}
    (hp : s.pending = .write8 addr v :: rest) : Served s (busWrite8 off v { s with pending := rest }) := by
  have hi := State.nextCommand_of_not_write32 hp nofun
  rcases busWrite8_cases off v { s with pending := rest } with ⟨b, k, ht, hb, hw⟩ | ⟨_, _, hw⟩ | ⟨_, hw⟩ <;> rw [hw]
  · obtain ⟨hk, _⟩ := byteTarget_buffer ht
    exact .byteWrite _ rest b k v hp hi (by rcases hb with rfl | rfl | rfl <;> decide) hk
  · exact .answered _ rest _ hp hi
  · exact .answered _ rest _ hp hi

theorem step_served {s t : State} (h : step s = .next t) : Served s t := by
  obtain ⟨_, ⟨hp, rfl⟩ | ⟨a, rest, hp, hs⟩⟩ := servePort_cases h
  · exact .nothing hp
  · cases a with
    | read w addr =>
      obtain ⟨off, _, hr⟩ := atAddress_next hs
      obtain ⟨r, hb⟩ := busRead_eq w off { s with pending := rest }
      cases hr
      exact hb ▸ .answered _ rest r hp (State.nextCommand_of_not_write32 hp nofun)
    | write8 addr v =>
      obtain ⟨off, _, hr⟩ := atAddress_next hs
      cases hr
      exact served_of_write8 hp
    | write16 addr v =>
      obtain ⟨_, _, hr⟩ := atAddress_next hs
      cases hr
      exact .answered _ rest .busError hp (State.nextCommand_of_not_write32 hp nofun)
    | write32 addr w =>
      obtain ⟨off, ho, hr⟩ := atAddress_next hs
      exact served_of_write32 hp ho hr
    | reset =>
      cases hs
      exact .reset rest hp

/-! ### The invariant -/

theorem inv_resetOf {c : Config} (h : c.wellFormed = true) : (State.resetOf c).Inv := by
  obtain ⟨hsizes, _⟩ := (Config.wellFormed_iff c).mp h
  obtain ⟨⟨hcap, _⟩, ⟨hdepth, _⟩, _⟩ := (Config.sizesOk_iff c).mp hsizes
  exact {
    config := h
    canonical := rfl
    inside := nofun
    accBounded := ⟨fun _ => Nat.lt_of_lt_of_le (Nat.succ_pos 3) hcap, nofun, fun _ => rfl⟩
    accHeader := nofun
    accNoTail := nofun
    accClosed := nofun
    latched := ⟨fun _ => ⟨rfl, Nat.zero_le _⟩, fun _ => Nat.zero_le _, nofun⟩
    queue := ⟨hdepth, Nat.zero_le _, List.length_replicate, fun q hq => by
      rw [List.eq_of_mem_replicate hq]
      exact ⟨List.length_replicate, Nat.zero_le _⟩, nofun⟩
    cursors := ⟨Nat.le_refl 0, Nat.zero_le _, fun _ => rfl, fun _ => rfl⟩
    lengths := ⟨Nat.zero_le _, Nat.zero_le _, Nat.zero_le _, Nat.zero_le _⟩
    handlers := BitVec.zero_and }

/-- Settles O10: part by part, for every legal configuration and so for the reference one. -/
theorem invariantHoldsAtReset : Obligations.InvariantHoldsAtReset :=
  ⟨inv_resetOf (by decide), fun _ => inv_resetOf⟩

/-- A write of HENk cannot set the bit of an unknown type. -/
theorem State.writeHen_known {s : State} (h : s.HenKnown) (k : Nat) (w : Word) : (s.writeHen k w).HenKnown := by
  refine BitVec.eq_of_getLsbD_eq fun i hi => ?_
  have hbit := congrArg (fun v => v.getLsbD i) h
  simp only [BitVec.getLsbD_and, BitVec.getLsbD_not, BitVec.getLsbD_zero, hi, decide_true, Bool.true_and] at hbit
  simp only [State.writeHen_hen, State.writeHen_cfg, BitVec.getLsbD_and, BitVec.getLsbD_or, BitVec.getLsbD_not,
    BitVec.getLsbD_zero, hi, decide_true, Bool.true_and]
  cases hk : s.cfg.knownTypes.getLsbD i <;> simp_all

theorem State.Inv.writeCsr {s : State} (h : s.Inv) (w : Word) (c : Csr) : (s.writeCsr w c).Inv := by
  obtain ⟨hpbuf, hrbuf, htx, hrx⟩ := h.lengths
  rcases writeCsr_cases s w c with ⟨_, hw⟩ | ⟨_, hw⟩ | ⟨_, hw⟩ | ⟨_, hw⟩ | ⟨_, hw⟩ | ⟨k, _, hw⟩ | hw <;> rw [hw]
  · exact { h with }
  · exact { h with lengths := ⟨Nat.min_le_right .., hrbuf, htx, hrx⟩ }
  · exact { h with lengths := ⟨hpbuf, Nat.min_le_right .., htx, hrx⟩ }
  · exact { h with }
  · exact { h with lengths := ⟨hpbuf, hrbuf, htx, Nat.min_le_right ..⟩ }
  · exact { h with handlers := State.writeHen_known h.handlers k w }
  · exact h

/-- Taking an access off the port and answering it changes nothing the invariant speaks of. -/
theorem State.Inv.port {s : State} (h : s.Inv) (rest : List Access) (r : Response) :
    ({ s with pending := rest, response := r } : State).Inv := { h with }

theorem State.Inv.served {s t : State} (h : s.Inv) (hs : Served s t) : t.Inv := by
  cases hs with
  | nothing => exact h
  | reset rest =>
    have hreset := inv_resetOf h.config
    exact { hreset with }
  | command _ rest i t _ _ he => exact (h.port rest .done).effect he
  | illegal => exact { h with }
  | answered _ rest r => exact h.port rest r
  | byteWrite _ rest b k v _ _ hb hk => exact (h.port rest .done).write hb (.put s.mem v hk)
  | csrWrite rest _ w c => exact (h.port rest .done).writeCsr w c

/-- Settles O11: the cases of a step; its substance is in the effects of the commands, and there in the byte loop
(`State.Inv.of_loopEnds`) and the ring (`State.QueueBounded.enqueue`). -/
theorem everyStepKeepsTheInvariant : Obligations.EveryStepKeepsTheInvariant := fun _ _ h hs => h.served (step_served hs)

/-! ### The phase (10_state.md R30) -/

/-- What a CSR write can change at all. -/
theorem State.writeCsr_same (s : State) (w : Word) (c : Csr) : s.writeCsr w c =
    { s with seqErr := (s.writeCsr w c).seqErr, illCmd := (s.writeCsr w c).illCmd, hen := (s.writeCsr w c).hen,
             rxOff := (s.writeCsr w c).rxOff, pbufLen := (s.writeCsr w c).pbufLen, rspLen := (s.writeCsr w c).rspLen,
             data := (s.writeCsr w c).data } := by
  rcases writeCsr_cases s w c with ⟨_, h⟩ | ⟨_, h⟩ | ⟨_, h⟩ | ⟨_, h⟩ | ⟨_, h⟩ | ⟨_, _, h⟩ | h <;> rw [h] <;> rfl

/-- A command other than FEED and ACK keeps the phase; FEED executes in IDLE only, ACK in DISPATCH only. -/
theorem Effect.phase {s t : State} {i : Instr} (h : Effect s i t) :
    t.phase = s.phase ∨ (s.phase = .idle ∧ ∃ n, i = .feed n) ∨ (s.phase = .dispatch ∧ i = .ack) := by
  cases h with
  | feed n hidle => exact .inr (.inl ⟨hidle, n, rfl⟩)
  | ack hdispatch => exact .inr (.inr ⟨hdispatch, rfl⟩)
  | push => rw [pushFrame_same]; exact .inl rfl
  | pop n => rw [popFrame_same]; exact .inl rfl
  | refused | prepare | writes | ends => exact .inl rfl

/-- A step keeps the phase, or issues a FEED in IDLE or an ACK in DISPATCH, or is the reset event. -/
theorem Served.phase {s t : State} (h : Served s t) :
    t.phase = s.phase ∨ (s.phase = .idle ∧ ∃ n, s.nextCommand = some (.feed n)) ∨
    (s.phase = .dispatch ∧ s.nextCommand = some .ack) ∨ (t.phase = .idle ∧ s.pending.head? = some .reset) := by
  cases h with
  | reset rest hp => exact .inr (.inr (.inr ⟨rfl, by rw [hp]; rfl⟩))
  | command _ rest i t _ hi he =>
    rcases he.phase with hph | ⟨hidle, n, rfl⟩ | ⟨hdispatch, rfl⟩
    · exact .inl hph
    · exact .inr (.inl ⟨hidle, n, hi⟩)
    · exact .inr (.inr (.inl ⟨hdispatch, hi⟩))
  | csrWrite rest _ w c => rw [State.writeCsr_same]; exact .inl rfl
  | nothing | illegal | answered | byteWrite => exact .inl rfl

/-- Settles O14: the phase changes of a step. -/
theorem onlyFeedAndAckMoveThePhase : Obligations.OnlyFeedAndAckMoveThePhase := by
  intro s t h
  rcases (step_served h).phase with hsame | ⟨hidle, hfeed⟩ | ⟨hdispatch, hack⟩ | ⟨hidle, hreset⟩
  · exact ⟨fun hs ht => by simp [hsame, hs] at ht, fun hs ht => by simp [hsame, hs] at ht⟩
  · exact ⟨fun _ _ => hfeed, fun hs => by simp [hidle] at hs⟩
  · exact ⟨fun hs => by simp [hdispatch] at hs, fun _ _ => .inl hack⟩
  · exact ⟨fun _ ht => by simp [hidle] at ht, fun _ _ => .inr hreset⟩

/-! ### The refusal flags (10_state.md R26) -/

/-- A CSR write clears a refusal flag only at STATUS, by the flag's own bit. -/
theorem State.writeCsr_flags (s : State) (w : Word) (c : Csr) :
    ((s.writeCsr w c).seqErr = s.seqErr ∨ (c = .status ∧ (s.writeCsr w c).seqErr = (s.seqErr && !w.getLsbD 8))) ∧
    ((s.writeCsr w c).illCmd = s.illCmd ∨ (c = .status ∧ (s.writeCsr w c).illCmd = (s.illCmd && !w.getLsbD 9))) := by
  rcases writeCsr_cases s w c with ⟨rfl, h⟩ | ⟨_, h⟩ | ⟨_, h⟩ | ⟨_, h⟩ | ⟨_, h⟩ | ⟨_, _, h⟩ | h <;> rw [h]
  · exact ⟨.inr ⟨rfl, rfl⟩, .inr ⟨rfl, rfl⟩⟩
  all_goals exact ⟨.inl rfl, .inl rfl⟩

/-- The access at the head of the port is a 32-bit write to STATUS with bit `n` set. -/
def State.ClearsFlag (s : State) (n : Nat) : Prop :=
  ∃ addr w, s.pending.head? = some (.write32 addr w) ∧ addr = s.cfg.base + 0x008 ∧ w.getLsbD n = true

/-- A flag that a STATUS write with bit `n` took from 1 to 0 was cleared by that bit. -/
theorem State.clearsFlag_of_status {s : State} {off n : Nat} {w : Word} {rest : List Access} {f f' : Bool}
    (hp : s.pending = .write32 (s.cfg.base + off) w :: rest) (hc : csrAt off = some .status) (hf : f' = (f && !w.getLsbD n))
    (hset : f = true) (hclear : f' = false) : s.ClearsFlag n := by
  cases csrAt_status hc
  exact ⟨_, w, by rw [hp]; rfl, rfl, by simpa [hset, hclear] using hf⟩

theorem Served.flags {s t : State} (h : Served s t) :
    (s.seqErr = true → t.seqErr = false → s.pending.head? = some .reset ∨ s.ClearsFlag 8) ∧
    (s.illCmd = true → t.illCmd = false → s.pending.head? = some .reset ∨ s.ClearsFlag 9) := by
  have hkept : ∀ {f f' : Bool} {p : Prop}, f' = f → f = true → f' = false → p := fun h hs ht => by
    rw [h, hs] at ht
    cases ht
  cases h with
  | reset rest hp => exact ⟨fun _ _ => .inl (by rw [hp]; rfl), fun _ _ => .inl (by rw [hp]; rfl)⟩
  | command _ rest i t _ _ he =>
    obtain ⟨hhost, hseq⟩ := he.host
    refine ⟨fun hs ht => ?_, hkept hhost.illCmd⟩
    rcases hseq with hseq | ⟨_, hseq⟩
    · exact hkept hseq hs ht
    · simp [hseq] at ht
  | csrWrite rest off w c hp _ hc =>
    obtain ⟨hseq, hill⟩ := State.writeCsr_flags { s with pending := rest, response := .done } w c
    refine ⟨fun hs ht => ?_, fun hs ht => ?_⟩
    · rcases hseq with hseq | ⟨rfl, hseq⟩
      · exact hkept hseq hs ht
      · exact .inr (State.clearsFlag_of_status hp hc hseq hs ht)
    · rcases hill with hill | ⟨rfl, hill⟩
      · exact hkept hill hs ht
      · exact .inr (State.clearsFlag_of_status hp hc hill hs ht)
  | illegal => exact ⟨hkept rfl, fun _ ht => by cases ht⟩
  | nothing | answered | byteWrite => exact ⟨hkept rfl, hkept rfl⟩

/-- Settles O17: what each kind of step does to the flags. -/
theorem refusalFlagsAreSticky : Obligations.RefusalFlagsAreSticky := fun _ _ h => (step_served h).flags

/-! ## Which command writes which buffer (10_state.md R29, R34, R37 to R39) -/

/-- `t` has the bytes and the lengths of `s` in every buffer but `o`, if that is one. -/
structure State.WritesOnly (o : Option Buffer) (s t : State) : Prop where
  bytes : ∀ b, o ≠ some b → ∀ k, k < 4096 → t.byteAt b k = s.byteAt b k
  rspLen : o ≠ some .rbuf → t.rspLen = s.rspLen
  txLen : o ≠ some .txbuf → t.txLen = s.txLen
  accLen : o ≠ some .acc → t.accLen = s.accLen

/-- A write inside one buffer, which leaves the lengths of the others. -/
theorem State.WritesOnly.of_written {b : Buffer} {s t : State} (hc : s.cfg.wellFormed = true)
    (hw : Memory.WrittenIn s.cfg b s.mem t.mem) (hr : b ≠ .rbuf → t.rspLen = s.rspLen) (ht : b ≠ .txbuf → t.txLen = s.txLen)
    (ha : b ≠ .acc → t.accLen = s.accLen) : State.WritesOnly (some b) s t where
  bytes _ hb _ hk := hw.get_other hc (fun h => hb (h ▸ rfl)) hk
  rspLen h := hr fun hb => h (hb ▸ rfl)
  txLen h := ht fun hb => h (hb ▸ rfl)
  accLen h := ha fun hb => h (hb ▸ rfl)

theorem State.WritesOnly.of_eq {o : Option Buffer} {s t : State} (hm : t.mem = s.mem) (hr : t.rspLen = s.rspLen)
    (ht : t.txLen = s.txLen) (ha : t.accLen = s.accLen) : State.WritesOnly o s t :=
  ⟨fun b _ k _ => by simp only [State.byteAt, hm], fun _ => hr, fun _ => ht, fun _ => ha⟩

theorem SameButFeed.writesOnly {s t : State} (h : SameButFeed s t) (hc : s.cfg.wellFormed = true)
    (hw : Memory.WrittenIn s.cfg .acc s.mem t.mem) : State.WritesOnly (some .acc) s t := by
  refine .of_written hc hw (fun _ => ?_) (fun _ => ?_) (absurd rfl) <;> rw [show t = _ from h]

theorem State.Inv.feedChunk_written {s : State} (h : s.Inv) (hidle : s.phase = .idle) (n : Nat) :
    Memory.WrittenIn s.cfg .acc s.mem (Machine.feedChunk n s).mem := by
  rcases Nat.lt_or_ge s.cfg.rxSize (s.rxOff + n) with hn | hn
  · rw [feedChunk_beyond hn]
    exact .refl ..
  · cases hp : s.cfg.policy with
    | accumulate =>
      rw [feedChunk_accumulate hn hp]
      exact (h.feed_ends hidle).written
    | wholeFrame =>
      rw [feedChunk_wholeFrame hn hp]
      rcases wholeFrame_cases { s with feedPos := s.rxOff, feedEnd := s.rxOff + n } with ⟨_, _, hw⟩ | ⟨_, hw⟩ <;> rw [hw] <;>
        exact .refl ..

theorem State.Inv.ackDispatch_written {s : State} (h : s.Inv) :
    Memory.WrittenIn s.cfg .acc s.mem (Machine.ackDispatch s).mem := by
  cases hp : s.cfg.policy with
  | accumulate =>
    rw [ackDispatch_accumulate hp]
    exact h.ack_ends.written
  | wholeFrame =>
    rw [ackDispatch_wholeFrame hp]
    exact .refl ..

/-- POP writes its frame inside RBUF, and nothing else of a buffer but RSP_LEN. -/
theorem State.Inv.popFrame_writesOnly {s : State} (h : s.Inv) (c : Nat) :
    State.WritesOnly (some .rbuf) s (Machine.popFrame c s) := by
  have hwritten : Memory.WrittenIn s.cfg .rbuf s.mem (Machine.popFrame c s).mem := by
    rcases popFrame_cases c s with ⟨_, hp⟩ | ⟨_, _, hp⟩ | ⟨_, _, _, hp⟩ | ⟨hc, hne, hlen, hp⟩ <;> rw [hp]
    case inr.inr.inr =>
      obtain ⟨hframe, _⟩ := h.queue.front hne
      exact .putBytes s.mem (by simp only [Buffer.size]; omega)
    all_goals exact .refl ..
  refine .of_written h.config hwritten (absurd rfl) (fun _ => ?_) fun _ => ?_ <;> rw [popFrame_same]

theorem State.Inv.effect_writesOnly {s t : State} {i : Instr} (h : s.Inv) (he : Effect s i t) :
    State.WritesOnly (target i) s t := by
  cases he with
  | feed n hidle => exact (feedChunk_same n s).writesOnly h.config (h.feedChunk_written hidle n)
  | ack => exact (ackDispatch_same s).writesOnly h.config h.ackDispatch_written
  | push => rw [pushFrame_same]; exact .of_eq rfl rfl rfl rfl
  | pop n => exact h.popFrame_writesOnly n
  | prepare tx _ _ hi _ hfit =>
    rw [hi]
    exact .of_written h.config (.putBytes s.mem (i := 0) (by simpa [Buffer.size] using hfit)) (fun _ => rfl) (absurd rfl)
      fun _ => rfl
  | writes _ _ _ _ hi hfit =>
    rw [hi]
    obtain ⟨hpbuf, _⟩ := h.lengths
    exact .of_written h.config (.putBytes s.mem (Nat.le_trans hfit hpbuf)) (fun _ => rfl) (fun _ => rfl) fun _ => rfl
  | refused | ends => exact .of_eq rfl rfl rfl rfl

/-- The writers of each buffer, by name. -/
theorem target_cases (i : Instr) :
    (target i = some .pbuf → (∃ l p, i = .psetByte l p) ∨ (∃ l p, i = .psetBit l p) ∨ (∃ o, i = .put16 o) ∨
      (∃ o, i = .put32 o)) ∧
    (target i = some .rbuf → ∃ n, i = .pop n) ∧
    (target i = some .txbuf → (∃ b n, i = .prepare b n) ∨ (∃ b n, i = .prepareRsp b n)) ∧
    (target i = some .acc → (∃ n, i = .feed n) ∨ i = .ack) ∧ target i ≠ some .rxbuf := by
  cases i <;> simp [target]

/-- Settles O19: a changed byte or length names the command's target. -/
theorem eachBufferHasItsWriters : Obligations.EachBufferHasItsWriters := by
  intro i s t h hexec
  obtain ⟨hbytes, hrsp, htx, hacc⟩ := h.effect_writesOnly (exec_effect hexec)
  obtain ⟨hpbuf, hrbuf, htxbuf, haccbuf, hrxbuf⟩ := target_cases i
  have hchanged : ∀ b, (∃ k, k < 4096 ∧ t.byteAt b k ≠ s.byteAt b k) → target i = some b := fun b ⟨k, hk, hne⟩ => by
    by_contra hb
    exact hne (hbytes b hb k hk)
  exact ⟨fun hp => hpbuf (hchanged _ hp),
    fun hr => hrbuf (hr.elim (hchanged _) fun hne => by_contra fun hb => hne (hrsp hb)),
    fun ht => htxbuf (ht.elim (hchanged _) fun hne => by_contra fun hb => hne (htx hb)),
    fun ha => haccbuf (ha.elim (hchanged _) fun hne => by_contra fun hb => hne (hacc hb)),
    hbytes _ hrxbuf⟩

/-! ## The byte automaton (41_router.md R162 to R165) -/

theorem exec_feed_accumulate {s : State} {n : Nat} (hidle : s.phase = .idle) (hp : s.cfg.policy = .accumulate)
    (hn : s.rxOff + n ≤ s.cfg.rxSize) :
    exec (.feed n) s = .next (runLoop { s with feedPos := s.rxOff, feedEnd := s.rxOff + n }).finishRouter := by
  rw [← feedChunk_accumulate hn hp]
  exact onlyIn_accepted _ hidle

/-- How a run ends is not changed by the end of the command. -/
theorem State.RunsAs.congr {s t u : State} {r : Flow × List Byte × List Byte} (h : s.RunsAs t r)
    (heq : t.finishRouter = u.finishRouter) : s.RunsAs u r where
  bytes := (congrArg State.accBytes heq).symm.trans h.bytes
  phase := (congrArg State.phase heq).symm.trans h.phase
  left := (congrArg (State.feedPos · + r.2.2.length) heq).symm.trans h.left

/-- FEED's loop runs as the automaton does. -/
theorem State.Inv.feed_runsAs {s : State} {n : Nat} (h : s.Inv) (hidle : s.phase = .idle) (hp : s.cfg.policy = .accumulate)
    (hn : s.rxOff + n ≤ s.cfg.rxSize) :
    State.RunsAs { s with feedPos := s.rxOff, feedEnd := s.rxOff + n }
      (runLoop { s with feedPos := s.rxOff, feedEnd := s.rxOff + n })
      (absRun s.cfg.accCap s.routable s.accBytes (s.chunk n)) := by
  obtain ⟨t, hexec, hruns⟩ := exec_feed_runsAs h hidle hp hn
  rw [exec_feed_accumulate hidle hp hn] at hexec
  exact hruns.congr (Host.Outcome.next.inj hexec).symm

/-- A loop that ends as `LoopEnds` says and runs as the automaton does: the automaton stopped at a dispatch exactly when a frame
is held. -/
theorem State.LoopEnds.flow {s t : State} {flow : Flow} {acc rest : List Byte} (h : s.LoopEnds t)
    (hr : s.RunsAs t (flow, acc, rest)) :
    (flow = .cont → rest = [] ∧ t.phase = .idle ∧ s.SameDsp t) ∧ (flow = .suspend → t.Holding) := by
  obtain ⟨_, hphase, hleft⟩ := hr
  dsimp only at hphase hleft
  rcases h.ends with ⟨hacc, hdsp, hpos⟩ | ⟨hhold, _⟩
  · refine ⟨fun _ => ⟨List.length_eq_zero_iff.mp (by omega), hacc.idle, hdsp⟩, fun hf => ?_⟩
    rw [hf, hacc.idle] at hphase
    cases hphase
  · refine ⟨fun hf => ?_, fun _ => hhold⟩
    rw [hf, hhold.dispatch] at hphase
    cases hphase

theorem State.Holding.dspType_eq {s : State} (h : s.Holding) : s.dspType = s.accBytes.getD 1 0#8 := by
  have hleast := h.least
  rw [s.getD_accBytes (by omega), h.type]

/-- Settles O21: how the loop runs (`State.Inv.feed_runsAs`) together with how it ends (`State.Inv.feed_ends`). -/
theorem feedRunsTheByteAutomaton : Obligations.FeedRunsTheByteAutomaton := by
  intro s n h hidle hp hn
  have hexec := exec_feed_accumulate hidle hp hn
  have hends := h.feed_ends (n := n) hidle
  have hruns := h.feed_runsAs hidle hp hn
  generalize runLoop { s with feedPos := s.rxOff, feedEnd := s.rxOff + n } = t at hexec hends hruns
  rcases hr : absRun s.cfg.accCap s.routable s.accBytes (s.chunk n) with ⟨flow, acc, rest⟩
  rw [hr] at hruns
  obtain ⟨hcont, hsuspend⟩ := hends.flow hruns
  obtain ⟨hbytes, _, hleft⟩ := hruns
  obtain ⟨hsame, hwritten, _⟩ := hends
  have hlen : t.accLen = acc.length := t.length_accBytes.symm.trans (congrArg List.length hbytes)
  refine ⟨t.finishRouter, flow, acc, rest, hexec, rfl, hbytes, hlen, hsame.feedEnd, hleft.trans hsame.feedEnd.symm, rfl,
    fun hf => ?_, fun hf => ?_, hwritten.outside, ?_⟩
  · obtain ⟨hrest, hphase, htype, hlen, hoff⟩ := hcont hf
    exact ⟨hrest, hphase, congrArg dispatchResult hphase, htype, hlen, hoff⟩
  · have hhold := hsuspend hf
    exact ⟨hhold.dispatch, congrArg dispatchResult hhold.dispatch, hhold.dspType_eq.trans (by rw [hbytes]),
      hhold.len.trans hlen, hhold.off⟩
  · rw [show t = _ from hsame]
    rfl

/-! ## The queue (42_queue.md) -/

theorem exec_push (s : State) : exec .push s = .next (pushFrame s) := rfl

/-- Settles O32: the cases of PUSH, and what a stored frame does to the entry sequence. -/
theorem pushAppendsTheFrameInPbuf : Obligations.PushAppendsTheFrameInPbuf := by
  intro s hq
  obtain ⟨_, hcount, hlength, _⟩ := hq
  simp only [exec_push]
  rcases pushFrame_cases s with ⟨hzero, hp⟩ | ⟨hne, hfull, hp⟩ | ⟨hne, hroom, hmax, hp⟩
  · exact ⟨fun _ => congrArg _ hp, fun hne => absurd hzero hne, fun hne => absurd hzero hne, fun hne => absurd hzero hne⟩
  · refine ⟨fun hzero => absurd hzero hne, fun _ _ => congrArg _ hp, fun _ _ _ => congrArg _ hp, fun _ hroom hmax => ?_⟩
    omega
  · refine ⟨fun hzero => absurd hzero hne, fun _ hfull => absurd hfull hroom, fun _ _ hlong => by omega, fun _ _ _ => ?_⟩
    have hentries := State.entries_enqueue s (s.bytesOf .pbuf s.pbufLen) (by omega) hlength
    exact ⟨_, rfl, hp ▸ hentries, by rw [hp]; rfl, by rw [hp]; rfl, by rw [hp]; rfl, pushFrame_same s⟩

/-! ### First in, first out (42_queue.md R205) -/

theorem pushedBy_of_push {s : State} (t : State) (h : s.nextCommand = some .push) :
    pushedBy s t = if t.rc = .ok then [s.bytesOf .pbuf s.pbufLen] else [] := by
  simp [pushedBy, h]

theorem pushedBy_of_other {s : State} (t : State) (h : s.nextCommand ≠ some .push) : pushedBy s t = [] := by
  unfold pushedBy
  split
  · exact absurd ‹_› h
  · rfl

theorem poppedBy_of_pop {s : State} (t : State) {n : Nat} (h : s.nextCommand = some (.pop n)) (hidle : s.phase = .idle) :
    poppedBy s t = if t.rc = .ok ∧ t.rspLen ≠ 0 then [t.bytesOf .rbuf t.rspLen] else [] := by
  simp [poppedBy, h, hidle]

theorem poppedBy_of_refused_pop {s : State} (t : State) {n : Nat} (h : s.nextCommand = some (.pop n))
    (hdispatch : s.phase ≠ .idle) : poppedBy s t = [] := by
  simp [poppedBy, h, hdispatch]

theorem poppedBy_of_other {s : State} (t : State) (h : ∀ n, s.nextCommand ≠ some (.pop n)) : poppedBy s t = [] := by
  unfold poppedBy
  split
  · exact absurd ‹_› (h _)
  · rfl

/-- A step from `s` to `t` conserves the frames of the queue. -/
def Conserves (s t : State) : Prop := s.entries ++ pushedBy s t = poppedBy s t ++ t.entries

/-- A step that issues neither PUSH nor POP conserves the queue when it leaves the entries. -/
theorem Conserves.of_other {s t : State} (hpush : s.nextCommand ≠ some .push) (hpop : ∀ n, s.nextCommand ≠ some (.pop n))
    (he : t.entries = s.entries) : Conserves s t := by
  rw [Conserves, pushedBy_of_other t hpush, poppedBy_of_other t hpop, he, List.append_nil, List.nil_append]

theorem Conserves.of_no_command {s t : State} (hi : s.nextCommand = none) (he : t.entries = s.entries) : Conserves s t :=
  .of_other (by simp [hi]) (by simp [hi]) he

theorem SameButFeed.entries {s t : State} (h : SameButFeed s t) : t.entries = s.entries := by
  rw [show t = _ from h]
  rfl

theorem State.writeCsr_entries (s : State) (w : Word) (c : Csr) : (s.writeCsr w c).entries = s.entries := by
  rw [State.writeCsr_same]
  rfl

/-- A PUSH that ends with OK appends its frame; any other leaves the entries. -/
theorem State.QueueBounded.pushFrame_entries {s : State} (h : s.QueueBounded) :
    (pushFrame s).entries = s.entries ++ if (pushFrame s).rc = .ok then [s.bytesOf .pbuf s.pbufLen] else [] := by
  obtain ⟨_, hcount, hlength, _⟩ := h
  rcases pushFrame_cases s with ⟨_, hp⟩ | ⟨_, _, hp⟩ | ⟨_, hroom, _, hp⟩ <;> rw [hp]
  · exact (List.append_nil _).symm
  · exact (List.append_nil _).symm
  · exact State.entries_enqueue s _ (by omega) hlength

/-- A POP that ends with OK and a length above 0 hands out the oldest entry in RBUF; any other leaves the entries. -/
theorem State.QueueBounded.popFrame_entries {s : State} (h : s.QueueBounded) (c : Nat) :
    s.entries = (if (popFrame c s).rc = .ok ∧ (popFrame c s).rspLen ≠ 0 then
      [(popFrame c s).bytesOf .rbuf (popFrame c s).rspLen] else []) ++ (popFrame c s).entries := by
  rcases popFrame_cases c s with ⟨_, hp⟩ | ⟨_, _, hp⟩ | ⟨_, _, _, hp⟩ | ⟨_, hne, _, hp⟩ <;> rw [hp]
  · rfl
  · rfl
  · rfl
  · obtain ⟨hframe, hleast⟩ := h.front hne
    have hread := State.bytesOf_putBytes s .rbuf (s.slot s.qHead).frame
    rw [hframe] at hread
    rw [if_pos ⟨rfl, Nat.ne_of_gt hleast⟩]
    exact (State.entries_dequeue s (Nat.pos_of_ne_zero hne) h.1).trans (congrArg (· :: s.dequeue.entries) hread.symm)

theorem State.Inv.command_conserves {s t : State} {i : Instr} (h : s.Inv) (rest : List Access) (r : Response)
    (hi : s.nextCommand = some i) (he : Effect { s with pending := rest, response := r } i t) : Conserves s t := by
  have hqueue := (h.port rest r).queue
  cases he with
  | push =>
    rw [Conserves, pushedBy_of_push _ hi, poppedBy_of_other _ (by simp [hi]), hqueue.pushFrame_entries, List.nil_append]
    rfl
  | pop n hidle =>
    rw [Conserves, pushedBy_of_other _ (by simp [hi]), poppedBy_of_pop _ hi hidle, List.append_nil]
    exact hqueue.popFrame_entries n
  | refused hphase =>
    cases i with
    | push => cases hphase
    | pop n =>
      have hdispatch : s.phase ≠ .idle := fun hidle => by simp [acceptedIn, hidle] at hphase
      rw [Conserves, pushedBy_of_other _ (by simp [hi]), poppedBy_of_refused_pop _ hi hdispatch, List.append_nil]
      rfl
    | _ => exact .of_other (by simp [hi]) (by simp [hi]) rfl
  | feed n => exact .of_other (by simp [hi]) (by simp [hi]) (feedChunk_same n _).entries
  | ack => exact .of_other (by simp [hi]) (by simp [hi]) (ackDispatch_same _).entries
  | prepare _ _ _ htarget =>
    refine .of_other (fun hc => ?_) (fun n hc => ?_) rfl <;> cases hi.symm.trans hc <;> cases htarget
  | writes _ _ _ hcalc | ends _ _ hcalc =>
    refine .of_other (fun hc => ?_) (fun n hc => ?_) rfl <;> cases hi.symm.trans hc <;> cases hcalc

theorem State.Inv.served_conserves {s t : State} (h : s.Inv) (hs : Served s t) (hreset : .reset ∉ s.pending) :
    Conserves s t := by
  cases hs with
  | nothing hp => exact .of_no_command (by simp [State.nextCommand, State.nextWord, hp]) rfl
  | reset rest hp => exact absurd (hp ▸ List.mem_cons_self ..) hreset
  | command _ rest i t _ hi he => exact h.command_conserves rest .done hi he
  | csrWrite rest _ w c _ hi => exact .of_no_command hi (State.writeCsr_entries _ w c)
  | illegal _ _ _ hi | answered _ _ _ _ hi | byteWrite _ _ _ _ _ _ hi => exact .of_no_command hi rfl

/-- A step puts nothing on the port. -/
theorem Served.pending_subset {s t : State} (h : Served s t) : t.pending ⊆ s.pending := by
  cases h with
  | nothing => exact List.Subset.refl _
  | command a rest i t hp _ he =>
    obtain ⟨hhost, _⟩ := he.host
    rw [hhost.pending, hp]
    exact List.subset_cons_self a rest
  | csrWrite rest off w c hp =>
    rw [State.writeCsr_same, hp]
    exact List.subset_cons_self _ rest
  | reset rest hp | illegal a rest hp | answered a rest r hp | byteWrite a rest b k v hp =>
    rw [hp]
    exact List.subset_cons_self _ rest

theorem queueHistory_zero (s : State) : queueHistory 0 s = some ([], [], s) := rfl

/-- The equation of a longer run. `Eq.refl` and not `rfl`: Lean would try the latter as a rewrite by definition, which reduces
`step`. -/
theorem queueHistory_succ_eq (k : Nat) (s : State) : queueHistory (k + 1) s =
    match step s with
    | .next t =>
      match queueHistory k t with
      | some (pushed, popped, u) => some (pushedBy s t ++ pushed, poppedBy s t ++ popped, u)
      | none => none
    | .fault _ => none
    | .refused _ => none := Eq.refl _

theorem queueHistory_succ {k : Nat} {s u : State} {pushed popped : List (List Byte)}
    (h : queueHistory (k + 1) s = some (pushed, popped, u)) :
    ∃ t pushed' popped', step s = .next t ∧ queueHistory k t = some (pushed', popped', u) ∧
      pushed = pushedBy s t ++ pushed' ∧ popped = poppedBy s t ++ popped' := by
  rw [queueHistory_succ_eq] at h
  cases hs : step s with
  | next t =>
    rw [hs] at h
    cases hq : queueHistory k t with
    | none => simp [hq] at h
    | some r =>
      obtain ⟨pushed', popped', u'⟩ := r
      simp only [hq, Option.some.injEq, Prod.mk.injEq] at h
      obtain ⟨rfl, rfl, rfl⟩ := h
      exact ⟨t, pushed', popped', rfl, hq, rfl, rfl⟩
  | fault | refused => simp [hs] at h

/-- Settles O35, by induction on the number of steps: each conserves the frames, and keeps the invariant. -/
theorem theQueueIsFirstInFirstOut : Obligations.TheQueueIsFirstInFirstOut := by
  intro k
  induction k with
  | zero =>
    intro s t pushed popped _ _ hq
    simp only [queueHistory_zero, Option.some.injEq, Prod.mk.injEq] at hq
    obtain ⟨rfl, rfl, rfl⟩ := hq
    rw [List.append_nil, List.nil_append]
  | succ k ih =>
    intro s u pushed popped h hreset hq
    obtain ⟨t, pushed', popped', hstep, hq', rfl, rfl⟩ := queueHistory_succ hq
    have hserved := step_served hstep
    have hfirst : Conserves s t := h.served_conserves hserved hreset
    have hrest := ih t u pushed' popped' (h.served hserved) (fun hm => hreset (hserved.pending_subset hm)) hq'
    calc s.entries ++ (pushedBy s t ++ pushed')
        = (s.entries ++ pushedBy s t) ++ pushed' := (List.append_assoc ..).symm
      _ = poppedBy s t ++ (t.entries ++ pushed') := by rw [show _ = _ from hfirst, List.append_assoc]
      _ = (poppedBy s t ++ popped') ++ u.entries := by rw [hrest, List.append_assoc]

/-! ## The bus port, branch by branch (20_memory.md R66) -/

section Bus

variable {s : State} {off : Nat}

theorem busRead_csr {c : Csr} (h : csrAt off = some c) : busRead .w32 off s = s.answer (.word (s.readCsr c)) := by
  simp only [busRead, h]

theorem busRead_no_csr (h : csrAt off = none) : busRead .w32 off s = s.raiseBusError := by
  simp only [busRead, h]

theorem busRead_byte {k : ByteTarget} (h : byteTarget s.cfg off = some k) :
    busRead .w8 off s = s.answer (.byte (s.readByte k)) := by
  simp only [busRead, h]

theorem busRead_no_byte (h : byteTarget s.cfg off = none) : busRead .w8 off s = s.raiseBusError := by
  simp only [busRead, h]

theorem busWrite8_byte {v : Byte} {k : ByteTarget} (h : byteTarget s.cfg off = some k) :
    busWrite8 off v s = (s.answer .done).writeByte v k := by
  simp only [busWrite8, h]

theorem busWrite8_no_byte {v : Byte} (h : byteTarget s.cfg off = none) : busWrite8 off v s = s.raiseBusError := by
  simp only [busWrite8, h]

theorem busWrite32_cmd {w : Word} (h : csrAt off = some .cmd) : busWrite32 off w s = executeCommand w (s.answer .done) := by
  simp only [busWrite32, h]

theorem busWrite32_csr {w : Word} {c : Csr} (h : csrAt off = some c) (hc : c ≠ .cmd) :
    busWrite32 off w s = .next ((s.answer .done).writeCsr w c) := by
  rcases busWrite32_cases off w s with ⟨h', _⟩ | ⟨c', h', _, hw⟩ | ⟨h', _⟩
  · exact absurd (Option.some.inj (h.symm.trans h')) hc
  · rw [hw, Option.some.inj (h.symm.trans h')]
  · cases h.symm.trans h'

theorem busWrite32_no_csr {w : Word} (h : csrAt off = none) : busWrite32 off w s = .next s.raiseBusError := by
  simp only [busWrite32, h]

end Bus

/-! ### Only the entry sequence is observable (10_state.md R36) -/

/-- The state with its entries kept elsewhere: other slots, another head. -/
def State.setRing (s : State) (slots : List Slot) (head : Nat) : State := { s with slots := slots, qHead := head }

/-- A state change that neither reads nor writes the slots, Q_HEAD and Q_COUNT. Where all three parts hold by definition, `{}`
proves it. -/
structure RingFree (f : State → State) : Prop where
  commutes : ∀ s slots head, f (s.setRing slots head) = (f s).setRing slots head := by intros; rfl
  qCount : ∀ s, (f s).qCount = s.qCount := by intros; rfl
  cfg : ∀ s, (f s).cfg = s.cfg := by intros; rfl

theorem RingFree.entries {f : State → State} (hf : RingFree f) (s : State) : (f s).entries = s.entries := by
  have hself : f s = (f s).setRing s.slots s.qHead := hf.commutes s s.slots s.qHead
  exact State.entries_congr (s := s) (t := f s) (by rw [hself]; rfl) (by rw [hself]; rfl) (hf.qCount s) (hf.cfg s)

theorem SameButRing.exists_setRing {s s' : State} (h : SameButRing s s') : ∃ slots head, s' = s.setRing slots head :=
  ⟨_, _, h.1⟩

theorem RingFree.same {f : State → State} (hf : RingFree f) {s s' : State} (h : SameButRing s s') :
    SameButRing (f s) (f s') := by
  refine ⟨?_, (hf.entries s).trans (h.2.trans (hf.entries s').symm)⟩
  obtain ⟨slots, head, rfl⟩ := h.exists_setRing
  rw [hf.commutes]
  rfl

/-- A choice by what the ring does not hold. -/
theorem RingFree.ite {c : State → Prop} [DecidablePred c] {f g : State → State}
    (hc : ∀ s slots head, c (s.setRing slots head) ↔ c s) (hf : RingFree f) (hg : RingFree g) :
    RingFree fun s => if c s then f s else g s where
  commutes s slots head := by
    by_cases h : c s
    · rw [if_pos h, if_pos ((hc s slots head).mpr h), hf.commutes]
    · rw [if_neg h, if_neg (mt (hc s slots head).mp h), hg.commutes]
  qCount s := by
    split
    · exact hf.qCount s
    · exact hg.qCount s
  cfg s := by
    split
    · exact hf.cfg s
    · exact hg.cfg s

theorem ringFree_fail (rc : ResultCode) : RingFree (State.fail · rc) := {}

/-! The router does not see the ring. -/

theorem dispatchAcc_setRing (s : State) (slots : List Slot) (head : Nat) :
    dispatchAcc (s.setRing slots head) = ((dispatchAcc s).1, (dispatchAcc s).2.setRing slots head) := by
  rcases dispatchAcc_cases s with ⟨hr, h⟩ | ⟨hr, h⟩ <;> rw [h] <;> unfold dispatchAcc
  · exact if_pos hr
  · exact if_neg (Bool.eq_false_iff.mp hr)

/-! The byte step, one equation per branch. -/

section AccByte

variable {b : Byte} {s : State}

theorem accByte_of_no_header (h : (s.appendAcc b).byteAt .acc 0 ≠ reqHdr) :
    accByte b s = (.cont, { s.appendAcc b with accLen := 0 }) := if_pos h

theorem accByte_of_tail {i : Nat} (h : (s.appendAcc b).byteAt .acc 0 = reqHdr) (hi : (s.appendAcc b).findTail = some i) :
    accByte b s = dispatchAcc { s.appendAcc b with accLen := i + 1 } := by
  simp only [accByte, hdrIndex, h, hi, ne_eq, not_true_eq_false, if_false]

theorem accByte_of_full (h : (s.appendAcc b).byteAt .acc 0 = reqHdr) (hi : (s.appendAcc b).findTail = none)
    (hfull : s.accLen + 1 = s.cfg.accCap) : accByte b s = (.cont, { s.appendAcc b with accLen := 0 }) := by
  simp only [accByte, hdrIndex, h, hi, ne_eq, not_true_eq_false, if_false]
  exact if_pos hfull

theorem accByte_of_room (h : (s.appendAcc b).byteAt .acc 0 = reqHdr) (hi : (s.appendAcc b).findTail = none)
    (hroom : s.accLen + 1 ≠ s.cfg.accCap) : accByte b s = (.cont, s.appendAcc b) := by
  simp only [accByte, hdrIndex, h, hi, ne_eq, not_true_eq_false, if_false]
  exact if_neg hroom

end AccByte

theorem accByte_setRing (b : Byte) (s : State) (slots : List Slot) (head : Nat) :
    accByte b (s.setRing slots head) = ((accByte b s).1, (accByte b s).2.setRing slots head) := by
  rcases accByte_cases b s with ⟨hh, h⟩ | ⟨hh, i, hi, h⟩ | ⟨hh, hi, hfull, h⟩ | ⟨hh, hi, hroom, h⟩ <;> rw [h]
  · exact accByte_of_no_header (s := s.setRing slots head) hh
  · exact (accByte_of_tail (s := s.setRing slots head) hh hi).trans
      (dispatchAcc_setRing { s.appendAcc b with accLen := i + 1 } slots head)
  · exact accByte_of_full (s := s.setRing slots head) hh hi hfull
  · exact accByte_of_room (s := s.setRing slots head) hh hi hroom

theorem loopTurn_setRing (s : State) (slots : List Slot) (head : Nat) :
    loopTurn (s.setRing slots head) = ((loopTurn s).1, (loopTurn s).2.setRing slots head) :=
  accByte_setRing _ { s with feedPos := s.feedPos + 1 } slots head

theorem runTurns_setRing (k : Nat) (s : State) (slots : List Slot) (head : Nat) :
    runTurns k (s.setRing slots head) = (runTurns k s).setRing slots head := by
  induction k generalizing s with
  | zero => rfl
  | succ k ih =>
    by_cases h : s.feedPos < s.feedEnd
    · rw [runTurns_succ k s h, runTurns_succ k (s.setRing slots head) h, loopTurn_setRing]
      rcases loopTurn s with ⟨_ | _, s'⟩
      · exact ih s'
      · rfl
    · rw [runTurns_done _ s h, runTurns_done _ (s.setRing slots head) h]

theorem runLoop_setRing (s : State) (slots : List Slot) (head : Nat) :
    runLoop (s.setRing slots head) = (runLoop s).setRing slots head := runTurns_setRing _ s slots head

theorem wholeFrame_ringFree : RingFree wholeFrame :=
  .ite (fun _ _ _ => Iff.rfl) {} {}

theorem SameButFeed.qCount {s t : State} (h : SameButFeed s t) : t.qCount = s.qCount := by
  rw [show t = _ from h]

theorem SameButFeed.cfg {s t : State} (h : SameButFeed s t) : t.cfg = s.cfg := by
  rw [show t = _ from h]

theorem feedChunk_ringFree (n : Nat) : RingFree (feedChunk n) where
  commutes s slots head := by
    rcases Nat.lt_or_ge s.cfg.rxSize (s.rxOff + n) with hn | hn
    · rw [feedChunk_beyond hn, feedChunk_beyond (s := s.setRing slots head) hn]
      rfl
    · cases hp : s.cfg.policy with
      | accumulate =>
        rw [feedChunk_accumulate hn hp, feedChunk_accumulate (s := s.setRing slots head) hn hp]
        exact congrArg State.finishRouter (runLoop_setRing { s with feedPos := s.rxOff, feedEnd := s.rxOff + n } slots head)
      | wholeFrame =>
        rw [feedChunk_wholeFrame hn hp, feedChunk_wholeFrame (s := s.setRing slots head) hn hp]
        exact congrArg State.finishRouter
          (wholeFrame_ringFree.commutes { s with feedPos := s.rxOff, feedEnd := s.rxOff + n } slots head)
  qCount s := (feedChunk_same n s).qCount
  cfg s := (feedChunk_same n s).cfg

theorem ackDispatch_ringFree : RingFree ackDispatch where
  commutes s slots head := by
    cases hp : s.cfg.policy with
    | accumulate =>
      rw [ackDispatch_accumulate hp, ackDispatch_accumulate (s := s.setRing slots head) hp]
      exact congrArg State.finishRouter (runLoop_setRing { s with phase := .idle, accLen := 0 } slots head)
    | wholeFrame =>
      rw [ackDispatch_wholeFrame hp, ackDispatch_wholeFrame (s := s.setRing slots head) hp]
      rfl
  qCount s := (ackDispatch_same s).qCount
  cfg s := (ackDispatch_same s).cfg

/-! Nor do the handshake and the codec. -/

theorem prepareTx_ringFree (b : Byte) (n : Nat) (rsp : Option (List Byte)) : RingFree (prepareTx b n rsp) := by
  cases rsp with
  | none => exact .ite (fun _ _ _ => Iff.rfl) {} {}
  | some f => exact .ite (fun _ _ _ => Iff.rfl) {} (.ite (fun _ _ _ => Iff.rfl) {} {})

/-- The response PREPARE_RSP offers is in RBUF, not in the ring. -/
theorem prepareRsp_ringFree (b : Byte) (n : Nat) : RingFree fun s => prepareTx b n s.offeredResponse s where
  commutes s := (prepareTx_ringFree b n s.offeredResponse).commutes s
  qCount s := (prepareTx_ringFree b n s.offeredResponse).qCount s
  cfg s := (prepareTx_ringFree b n s.offeredResponse).cfg s

theorem withParityArgs_ringFree {run : State → State} (last pidx : Nat) (hrun : RingFree run) :
    RingFree (withParityArgs last pidx run) :=
  .ite (fun _ _ _ => Iff.rfl) hrun (ringFree_fail _)

theorem withBeArgs_ringFree {run : State → State} (off w : Nat) (hrun : RingFree run) : RingFree (withBeArgs off w run) :=
  .ite (fun _ _ _ => Iff.rfl) hrun (ringFree_fail _)

theorem validateFrame_ringFree (hdr tail ty : Byte) (l : Nat) : RingFree (validateFrame hdr tail ty l) :=
  .ite (fun _ _ _ => Iff.rfl) (ringFree_fail _)
    (.ite (fun _ _ _ => Iff.rfl) (ringFree_fail _) {})

theorem writeCsr_ringFree (w : Word) (c : Csr) : RingFree (State.writeCsr · w c) := by
  cases c <;> exact {}

theorem busRead_ringFree (w : Width) (off : Nat) : RingFree (busRead w off) where
  commutes s slots head := by
    cases w with
    | w8 =>
      cases ht : byteTarget s.cfg off with
      | some k => rw [busRead_byte ht, busRead_byte (s := s.setRing slots head) ht]; rfl
      | none => rw [busRead_no_byte ht, busRead_no_byte (s := s.setRing slots head) ht]; rfl
    | w16 => rfl
    | w32 =>
      cases hc : csrAt off with
      | some c => rw [busRead_csr hc, busRead_csr hc]; rfl
      | none => rw [busRead_no_csr hc, busRead_no_csr hc]; rfl
  qCount s := by
    obtain ⟨r, h⟩ := busRead_eq w off s
    rw [h]
    rfl
  cfg s := by
    obtain ⟨r, h⟩ := busRead_eq w off s
    rw [h]
    rfl

theorem busWrite8_ringFree (off : Nat) (v : Byte) : RingFree (busWrite8 off v) where
  commutes s slots head := by
    cases ht : byteTarget s.cfg off with
    | none => rw [busWrite8_no_byte ht, busWrite8_no_byte (s := s.setRing slots head) ht]; rfl
    | some k =>
      rw [busWrite8_byte ht, busWrite8_byte (s := s.setRing slots head) ht]
      rcases k with (_ | _ | _ | _ | _) | _ <;> rfl
  qCount s := by
    rcases busWrite8_cases off v s with ⟨_, _, _, _, h⟩ | ⟨_, _, h⟩ | ⟨_, h⟩ <;> rw [h] <;> rfl
  cfg s := (busWrite8_kept off v s).cfg

/-! PUSH and POP see the entries only. -/

/-- A choice that goes the same way in both states. -/
theorem SameButRing.ite {c c' : Prop} [Decidable c] [Decidable c'] {t t' u u' : State} (hc : c' ↔ c)
    (ht : c → SameButRing t t') (hu : ¬ c → SameButRing u u') :
    SameButRing (if c then t else u) (if c' then t' else u') := by
  by_cases h : c
  · rw [if_pos h, if_pos (hc.mpr h)]
    exact ht h
  · rw [if_neg h, if_neg (mt hc.mp h)]
    exact hu h

theorem ringFree_finishOk (v : Word) : RingFree (State.finishOk · v) := {}

theorem SameButRing.finishOk {s s' : State} (h : SameButRing s s') {v v' : Word} (hv : v' = v) :
    SameButRing (s.finishOk v) (s'.finishOk v') := hv ▸ (ringFree_finishOk v').same h

/-- A stored frame follows the entries, wherever they are kept. -/
theorem SameButRing.enqueue {s s' : State} (h : SameButRing s s') (hq : s.QueueBounded) (hq' : s'.QueueBounded)
    (hroom : s.qCount ≠ s.cfg.qDepth) (f : List Byte) : SameButRing (s.enqueue f) (s'.enqueue f) := by
  obtain ⟨_, hcount, hlength, _⟩ := hq
  obtain ⟨_, hcount', hlength', _⟩ := hq'
  have hentries := h.2
  obtain ⟨slots, head, rfl⟩ := h.exists_setRing
  have hroom' : (s.setRing slots head).qCount < (s.setRing slots head).cfg.qDepth := Nat.lt_of_le_of_ne hcount' hroom
  refine ⟨rfl, ?_⟩
  rw [State.entries_enqueue s f (by omega) hlength, State.entries_enqueue _ f hroom' hlength', hentries]

/-- The oldest frame and what a release leaves are those of the entries. -/
theorem SameButRing.dequeue {s s' : State} (h : SameButRing s s') (hq : s.QueueBounded) (hq' : s'.QueueBounded)
    (hne : s.qCount ≠ 0) :
    (s'.slot s'.qHead).frame = (s.slot s.qHead).frame ∧ (s'.slot s'.qHead).len = (s.slot s.qHead).len ∧
      SameButRing s.dequeue s'.dequeue := by
  have hentries := h.2
  have hne' : s'.qCount ≠ 0 := by rw [h.1]; exact hne
  obtain ⟨hlen, _⟩ := hq.front hne
  obtain ⟨hlen', _⟩ := hq'.front hne'
  obtain ⟨hhead, _⟩ := hq
  obtain ⟨hhead', _⟩ := hq'
  rw [State.entries_dequeue s (Nat.pos_of_ne_zero hne) hhead, State.entries_dequeue s' (Nat.pos_of_ne_zero hne') hhead',
    List.cons.injEq] at hentries
  obtain ⟨hframe, hrest⟩ := hentries
  refine ⟨hframe.symm, by rw [← hlen, ← hlen', hframe], ?_, hrest⟩
  rw [h.1]
  rfl

theorem pushFrame_sameButRing {s s' : State} (h : SameButRing s s') (hq : s.QueueBounded) (hq' : s'.QueueBounded) :
    SameButRing (pushFrame s) (pushFrame s') := by
  have hstore := h.enqueue hq hq'
  have hfail := fun rc => (ringFree_fail rc).same h
  obtain ⟨slots, head, rfl⟩ := h.exists_setRing
  exact .ite Iff.rfl (fun _ => hfail .arg) fun _ => .ite Iff.rfl (fun _ => hfail .alloc) fun hroom =>
    .ite Iff.rfl (fun _ => hfail .alloc) fun _ => (ringFree_finishOk _).same (hstore hroom _)

/-- POP's end with a frame: RBUF, RSP_LEN, RC and RESULT. -/
def State.handOut (s : State) (q : Slot) : State :=
  { s.putBytes .rbuf 0 q.frame with rspLen := q.len }.finishOk (zext q.len)

theorem ringFree_handOut (q : Slot) : RingFree (State.handOut · q) := {}

theorem popFrame_sameButRing {s s' : State} (h : SameButRing s s') (hq : s.QueueBounded) (hq' : s'.QueueBounded) (c : Nat) :
    SameButRing (popFrame c s) (popFrame c s') := by
  have hfront := h.dequeue hq hq'
  have hfail := (ringFree_fail .arg).same h
  have hempty : RingFree fun u => { u with rspLen := 0 }.finishOk 0#32 := {}
  have hrange : RingFree fun u => { u with rspLen := 0 }.fail .range := {}
  have hempty' := hempty.same h
  have hrange' := hrange.same h
  obtain ⟨slots, head, rfl⟩ := h.exists_setRing
  refine .ite Iff.rfl (fun _ => hfail) fun _ => .ite Iff.rfl (fun _ => hempty') fun hne => ?_
  obtain ⟨hframe, hlen, hrest⟩ := hfront hne
  refine .ite (by rw [hlen]) (fun _ => hrange') fun _ => ?_
  have hout : State.handOut ((s.setRing slots head).dequeue) ((s.setRing slots head).slot (s.setRing slots head).qHead) =
      State.handOut ((s.setRing slots head).dequeue) (s.slot s.qHead) := by
    simp only [State.handOut, hframe, hlen]
  have hsame := (ringFree_handOut (s.slot s.qHead)).same hrest
  rw [← hout] at hsame
  exact hsame

/-! ### Steps from two such states -/

/-- Outcomes that go on alike: where the first has a next state, the second has one that differs from it in the ring only. -/
def Follows (o o' : Host.Outcome State Fault Refusal) : Prop := ∀ t, o = .next t → ∃ t', o' = .next t' ∧ SameButRing t t'

theorem Follows.next {t t' : State} (h : SameButRing t t') : Follows (.next t) (.next t') := fun _ ht =>
  ⟨t', rfl, by cases ht; exact h⟩

theorem onlyIn_follows {p : Phase} {s s' : State} {run : State → State} (h : SameButRing s s')
    (hrun : SameButRing (run s) (run s')) : Follows (onlyIn p s run) (onlyIn p s' run) := by
  have hphase : s'.phase = s.phase := by rw [h.1]
  have hreject : RingFree State.rejectSeq := {}
  by_cases hp : s.phase = p
  · rw [onlyIn_accepted run hp, onlyIn_accepted run (hphase.trans hp)]
    exact .next hrun
  · rw [onlyIn_refused run hp, onlyIn_refused run (hphase ▸ hp)]
    exact .next (hreject.same h)

theorem inBoth_follows {s s' : State} {run : State → State} (h : SameButRing s s') (hrun : RingFree run) :
    Follows (inBoth s run) (inBoth s' run) := .next (hrun.same h)

theorem exec_follows {s s' : State} (h : SameButRing s s') (hq : s.QueueBounded) (hq' : s'.QueueBounded) (i : Instr) :
    Follows (exec i s) (exec i s') := by
  cases i with
  | feed n => exact onlyIn_follows h ((feedChunk_ringFree n).same h)
  | ack => exact onlyIn_follows h (ackDispatch_ringFree.same h)
  | push => exact .next (pushFrame_sameButRing h hq hq')
  | pop n => exact onlyIn_follows h (popFrame_sameButRing h hq hq' n)
  | prepare b n => exact onlyIn_follows h ((prepareTx_ringFree b n none).same h)
  | prepareRsp b n =>
    exact onlyIn_follows (run := fun u => prepareTx b n u.offeredResponse u) h ((prepareRsp_ringFree b n).same h)
  | valreq ty l | valrsp ty l => exact inBoth_follows h (validateFrame_ringFree _ _ ty l)
  | count => exact .next (h.finishOk (by rw [h.1]))
  | cstatus n => exact .next (h.finishOk (by rw [h.1]; rfl))
  | pcalcNone | pchkNone | psetNone => exact .next (h.finishOk rfl)
  | pcalcByte last pidx | pcalcBit last pidx | psetByte last pidx | psetBit last pidx =>
    exact inBoth_follows h (withParityArgs_ringFree last pidx {})
  | pchkByte last pidx | pchkBit last pidx =>
    exact inBoth_follows h (withParityArgs_ringFree last pidx (.ite (fun _ _ _ => Iff.rfl) {} (ringFree_fail _)))
  | get16 off | get32 off | put16 off | put32 off =>
    exact inBoth_follows h (withBeArgs_ringFree off _ {})

theorem ringFree_answer (r : Response) : RingFree (State.answer · r) := {}

theorem busWrite32_follows {s s' : State} (h : SameButRing s s') (hq : s.QueueBounded) (hq' : s'.QueueBounded) (off : Nat)
    (w : Word) : Follows (busWrite32 off w s) (busWrite32 off w s') := by
  have hdone := (ringFree_answer .done).same h
  have hill : RingFree State.rejectIll := {}
  cases hc : csrAt off with
  | none =>
    rw [busWrite32_no_csr hc, busWrite32_no_csr hc]
    exact .next ((ringFree_answer .busError).same h)
  | some c =>
    by_cases hcmd : c = .cmd
    · subst hcmd
      rw [busWrite32_cmd hc, busWrite32_cmd hc]
      unfold executeCommand
      cases decode w with
      | error e => exact .next (hill.same hdone)
      | ok i => exact exec_follows hdone hq hq' i
    · rw [busWrite32_csr hc hcmd, busWrite32_csr hc hcmd]
      exact .next ((writeCsr_ringFree w c).same hdone)

theorem atAddress_follows {addr : Nat} {s s' : State} {run run' : Nat → Host.Outcome State Fault Refusal}
    (h : SameButRing s s') (hrun : ∀ off, Follows (run off) (run' off)) :
    Follows (atAddress addr s run) (atAddress addr s' run') := by
  have hcfg : s'.cfg = s.cfg := by rw [h.1]
  unfold atAddress
  rw [hcfg]
  cases offsetOf s.cfg addr with
  | some off => exact hrun off
  | none => exact nofun

theorem serve_follows {s s' : State} (h : SameButRing s s') (hq : s.QueueBounded) (hq' : s'.QueueBounded) (a : Access) :
    Follows (serve a s) (serve a s') := by
  cases a with
  | read w addr => exact atAddress_follows h fun off => .next ((busRead_ringFree w off).same h)
  | write8 addr v => exact atAddress_follows h fun off => .next ((busWrite8_ringFree off v).same h)
  | write16 addr v => exact atAddress_follows h fun _ => .next ((ringFree_answer .busError).same h)
  | write32 addr w => exact atAddress_follows h fun off => busWrite32_follows h hq hq' off w
  | reset =>
    refine .next ?_
    rw [h.1]
    exact ⟨rfl, rfl⟩

/-- Settles O36: every access is served alike; only PUSH and POP reach the ring, and they see its entries. -/
theorem onlyTheEntrySequenceIsObservable : Obligations.OnlyTheEntrySequenceIsObservable := by
  intro s s' t h h' hsame hstep
  have hpending : s'.pending = s.pending := by rw [hsame.1]
  have htaken : ∀ rest, RingFree fun u => { u with pending := rest } := fun _ => {}
  obtain ⟨_, ⟨hp, rfl⟩ | ⟨a, rest, hp, hserve⟩⟩ := servePort_cases hstep
  · exact ⟨s', step_of_no_access h'.config (hpending.trans hp), hsame⟩
  · obtain ⟨t', ht', hsame'⟩ := serve_follows ((htaken rest).same hsame) h.queue h'.queue a t hserve
    exact ⟨t', (step_of_access h'.config (hpending.trans hp)).trans ht', hsame'⟩

/-- A 32-bit access that reaches a CSR is admitted. -/
theorem admitted_of_csrAt {c : Config} {off : Nat} {r : Csr} (h : csrAt off = some r) : admitted c .w32 off = true := by
  unfold csrAt at h
  split at h <;> first | rfl | cases h

/-! ## The step at each kind of access -/

section Step

variable {s : State} {rest : List Access} {off : Nat}

theorem step_read {w : Width} (h : s.cfg.wellFormed = true) (ho : off < 0x8000)
    (hp : s.pending = .read w (s.cfg.base + off) :: rest) : step s = .next (busRead w off { s with pending := rest }) := by
  rw [step_of_access h hp, serve, atAddress, offsetOf_base s.cfg off ho]

theorem step_write8 {v : Byte} (h : s.cfg.wellFormed = true) (ho : off < 0x8000)
    (hp : s.pending = .write8 (s.cfg.base + off) v :: rest) : step s = .next (busWrite8 off v { s with pending := rest }) := by
  rw [step_of_access h hp, serve, atAddress, offsetOf_base s.cfg off ho]

theorem step_write16 {v : Half} (h : s.cfg.wellFormed = true) (ho : off < 0x8000)
    (hp : s.pending = .write16 (s.cfg.base + off) v :: rest) :
    step s = .next { s with pending := rest, response := .busError } := by
  rw [step_of_access h hp, serve, atAddress, offsetOf_base s.cfg off ho]
  rfl

theorem step_write32 {w : Word} (h : s.cfg.wellFormed = true) (ho : off < 0x8000)
    (hp : s.pending = .write32 (s.cfg.base + off) w :: rest) : step s = busWrite32 off w { s with pending := rest } := by
  rw [step_of_access h hp, serve, atAddress, offsetOf_base s.cfg off ho]

/-- A CSR lies below the window's end. -/
theorem csrAt_lt {c : Csr} (h : csrAt off = some c) : off < 0x8000 := by
  have hadm := admitted_of_csrAt (c := Config.reference) h
  simp only [admitted, Bool.and_eq_true, decide_eq_true_iff] at hadm
  omega

theorem step_read_csr {c : Csr} (h : s.cfg.wellFormed = true) (hc : csrAt off = some c)
    (hp : s.pending = .read .w32 (s.cfg.base + off) :: rest) :
    step s = .next { s with pending := rest, response := .word (s.readCsr c) } := by
  rw [step_read h (csrAt_lt hc) hp, busRead_csr hc]
  cases c <;> rfl

theorem step_write_csr {w : Word} {c : Csr} (h : s.cfg.wellFormed = true) (hc : csrAt off = some c) (hcmd : c ≠ .cmd)
    (hp : s.pending = .write32 (s.cfg.base + off) w :: rest) :
    step s = .next ({ s with pending := rest, response := .done }.writeCsr w c) := by
  rw [step_write32 h (csrAt_lt hc) hp, busWrite32_csr hc hcmd]
  rfl

theorem step_command {w : Word} {i : Instr} (h : s.cfg.wellFormed = true) (hd : decode w = .ok i)
    (hp : s.pending = .write32 s.cfg.base w :: rest) : step s = exec i { s with pending := rest, response := .done } := by
  rw [step_write32 (off := 0) h (by decide) hp, busWrite32_cmd csrAt_zero, executeCommand, hd]
  rfl

end Step

theorem decode_of_decodeTableWord {n w : Nat} {i : Instr} (h : decodeTableWord n w = some i) :
    decode (BitVec.ofNat 32 (w % 2 ^ n)) = .ok i := by
  unfold decodeTableWord at h
  generalize decode _ = o at h ⊢
  cases o with
  | error e => cases h
  | ok j => exact congrArg _ (Option.some.inj h)

/-- Settles O5: the write to CMD, and the access `withFetchWord` puts first. -/
theorem stepRunsTheDecodedCommand : Obligations.StepRunsTheDecodedCommand :=
  ⟨fun _ _ _ _ h hp hd => step_command h hd hp,
   fun s w _ h htable => step_command (s := s.withFetchWord 32 w) h (decode_of_decodeTableWord htable) rfl⟩

/-! ## Accesses that are not admitted (20_memory.md R66) -/

theorem byteTarget_dframe {c : Config} {off k : Nat} (h : byteTarget c off = some (.dframe k)) :
    0x6000 ≤ off ∧ off ≤ 0x6FFF := by
  have hdm := Nat.div_add_mod off 0x1000
  have hmod := Nat.mod_lt off (show 0x1000 > 0 by decide)
  unfold byteTarget at h
  dsimp only at h
  split at h
  case h_6 hd => omega
  case h_7 => cases h
  all_goals
    obtain ⟨_, ht⟩ := inBuffer_some h
    cases ht

/-- An 8-bit access that reaches a byte is admitted. -/
theorem admitted_of_byteTarget {c : Config} {off : Nat} {t : ByteTarget} (h : byteTarget c off = some t) :
    admitted c .w8 off = true := by
  simp only [admitted, Bool.or_eq_true, decide_eq_true_iff]
  cases t with
  | buffer b k =>
    obtain ⟨hk, rfl⟩ := byteTarget_buffer h
    exact .inl ((insideBuffer_iff c _).mpr ⟨b, by omega, by omega⟩)
  | dframe k => exact .inr (byteTarget_dframe h)

theorem csrAt_of_not_admitted {c : Config} {off : Nat} (h : admitted c .w32 off = false) : csrAt off = none := by
  cases hc : csrAt off with
  | none => rfl
  | some r => exact absurd (h.symm.trans (admitted_of_csrAt hc)) (by decide)

theorem byteTarget_of_not_admitted {c : Config} {off : Nat} (h : admitted c .w8 off = false) : byteTarget c off = none := by
  cases ht : byteTarget c off with
  | none => rfl
  | some t => exact absurd (h.symm.trans (admitted_of_byteTarget ht)) (by decide)

/-- Settles O53: what is not admitted reaches neither a CSR nor a byte. -/
theorem rejectedAccessesOnlyGetABusError : Obligations.RejectedAccessesOnlyGetABusError := by
  intro s off rest h ho
  have hno32 := fun hadm => csrAt_of_not_admitted (c := s.cfg) (off := off) hadm
  have hno8 := fun hadm => byteTarget_of_not_admitted (c := s.cfg) (off := off) hadm
  refine ⟨fun w hadm hp => ?_, fun v hadm hp => ?_, fun v hp => step_write16 h ho hp, fun v hadm hp => ?_⟩
  · refine (step_read h ho hp).trans (congrArg _ ?_)
    cases w with
    | w8 => exact busRead_no_byte (hno8 hadm)
    | w16 => rfl
    | w32 => exact busRead_no_csr (hno32 hadm)
  · exact (step_write8 h ho hp).trans (congrArg _ (busWrite8_no_byte (hno8 hadm)))
  · exact (step_write32 h ho hp).trans (busWrite32_no_csr (hno32 hadm))

/-! ## The registers (10_state.md R23 to R43) -/

/-- Two fields side by side, as a number. -/
theorem toNat_append_add {n m : Nat} (x : BitVec n) (y : BitVec m) : (x ++ y).toNat = x.toNat * 2 ^ m + y.toNat := by
  rw [BitVec.toNat_append, ← Nat.shiftLeft_add_eq_or_of_lt y.isLt, Nat.shiftLeft_eq]

theorem Phase.pendBit_eq (p : Phase) : p.pendBit = decide (p = .dispatch) := by
  cases p <;> rfl

theorem toNat_flag (b : Bool) : b.toNat = if b then 1 else 0 := by
  cases b <;> rfl

/-- The word is its fields side by side. -/
theorem State.toNat_statusWord (s : State) : s.statusWord.toNat = s.rc.code.toNat + (if s.phase = .dispatch then 16 else 0) +
    (if s.seqErr then 256 else 0) + (if s.illCmd then 512 else 0) := by
  simp only [State.statusWord, toNat_append_add, BitVec.toNat_ofBool, Phase.pendBit_eq, toNat_flag, decide_eq_true_eq,
    BitVec.toNat_zero]
  split_ifs <;> omega

/-- Settles O58: the fields of the word, and the number of each result code. -/
theorem statusWordShowsItsFields : Obligations.StatusWordShowsItsFields := by
  intro s
  rw [State.toNat_statusWord]
  congr 3
  cases s.rc <;> rfl

/-! ### Reads -/

theorem zext16_eq {v : Nat} (h : v < 65536) : zext16 v = BitVec.ofNat 32 v := by
  apply BitVec.eq_of_toNat_eq
  simp only [zext16, BitVec.toNat_setWidth, BitVec.toNat_ofNat]
  omega

theorem zextByte_eq (b : Byte) : zextByte b = BitVec.ofNat 32 b.toNat := (BitVec.ofNat_toNat 32 b).symm

/-- Two 16-bit parameters in one CFG register. -/
theorem ofNat_append_ofNat (x : Nat) {y : Nat} (hy : y < 65536) :
    BitVec.ofNat 16 x ++ BitVec.ofNat 16 y = BitVec.ofNat 32 (x * 65536 + y) := by
  apply BitVec.eq_of_toNat_eq
  rw [toNat_append_add]
  simp only [BitVec.toNat_ofNat]
  omega

/-- Every length, offset and cursor fits its 16-bit field. -/
structure State.Fits (s : State) : Prop where
  accLen : s.accLen < 65536
  pbufLen : s.pbufLen < 65536
  rspLen : s.rspLen < 65536
  txLen : s.txLen < 65536
  rxOff : s.rxOff < 65536
  feedPos : s.feedPos < 65536
  feedEnd : s.feedEnd < 65536
  dspLen : s.dspLen < 65536
  dspOff : s.dspOff < 65536

theorem State.Inv.fits {s : State} (h : s.Inv) : s.Fits := by
  obtain ⟨hsizes, _⟩ := (Config.wellFormed_iff _).mp h.config
  obtain ⟨hacc, _, _, hpbuf, hrbuf, htx, hrx⟩ := (Config.sizesOk_iff _).mp hsizes
  obtain ⟨hpbufLen, hrspLen, htxLen, hrxOff⟩ := h.lengths
  obtain ⟨hpos, hend, _⟩ := h.cursors
  obtain ⟨hacc', hwhole, _⟩ := h.latched
  have haccLen := h.accLen_le
  have hdsp : s.dspOff + s.dspLen ≤ 4096 := by
    cases hp : s.cfg.policy with
    | accumulate =>
      obtain ⟨hoff, hlen⟩ := hacc' hp
      omega
    | wholeFrame => exact Nat.le_trans (hwhole hp) hrx.2
  constructor <;> omega

/-- What a read of each register but HEN gives, as numbers. -/
theorem State.Inv.readCsr_eq {s : State} (h : s.Inv) :
    s.readCsr .accLen = BitVec.ofNat 32 s.accLen ∧ s.readCsr .pbufLen = BitVec.ofNat 32 s.pbufLen ∧
    s.readCsr .rspLen = BitVec.ofNat 32 s.rspLen ∧ s.readCsr .txLen = BitVec.ofNat 32 s.txLen ∧
    s.readCsr .rxOff = BitVec.ofNat 32 s.rxOff ∧ s.readCsr .feedPos = BitVec.ofNat 32 s.feedPos ∧
    s.readCsr .feedEnd = BitVec.ofNat 32 s.feedEnd ∧ s.readCsr .dspLen = BitVec.ofNat 32 s.dspLen ∧
    s.readCsr .dspOff = BitVec.ofNat 32 s.dspOff := by
  obtain ⟨hacc, hpbuf, hrsp, htx, hrx, hpos, hend, hlen, hoff⟩ := h.fits
  exact ⟨zext16_eq hacc, zext16_eq hpbuf, zext16_eq hrsp, zext16_eq htx, zext16_eq hrx, zext16_eq hpos, zext16_eq hend,
    zext16_eq hlen, zext16_eq hoff⟩

theorem Policy.toNat_bit (p : Policy) : (Policy.bit p).toNat = if p = .wholeFrame then 1 else 0 := by
  cases p <;> rfl

/-- CFG0..CFG4 of a legal configuration, as numbers (10_state.md R40). -/
theorem cfgWord_eq {c : Config} (h : c.wellFormed = true) :
    cfgWord c 0 = BitVec.ofNat 32 (c.qDepth * 65536 + c.accCap) ∧
    cfgWord c 1 = BitVec.ofNat 32 ((if c.policy = .wholeFrame then 65536 else 0) + c.qFrameMax) ∧
    cfgWord c 2 = BitVec.ofNat 32 (c.pollByte.toNat * 65536 + c.busyByte.toNat * 256 + c.readyByte.toNat) ∧
    cfgWord c 3 = BitVec.ofNat 32 (c.rbufSize * 65536 + c.pbufSize) ∧
    cfgWord c 4 = BitVec.ofNat 32 (c.rxSize * 65536 + c.txSize) := by
  obtain ⟨hsizes, _⟩ := (Config.wellFormed_iff c).mp h
  obtain ⟨hacc, _, hframe, hpbuf, _, htx, _⟩ := (Config.sizesOk_iff c).mp hsizes
  refine ⟨ofNat_append_ofNat _ (by omega), BitVec.eq_of_toNat_eq ?_, BitVec.eq_of_toNat_eq ?_, ofNat_append_ofNat _ (by omega),
    ofNat_append_ofNat _ (by omega)⟩
  · simp only [cfgWord, toNat_append_add, BitVec.toNat_ofBool, Policy.toNat_bit, BitVec.toNat_ofNat]
    split_ifs <;> omega
  · have hpoll := c.pollByte.isLt
    have hbusy := c.busyByte.isLt
    have hready := c.readyByte.isLt
    simp only [cfgWord, toNat_append_add, BitVec.toNat_ofNat]
    omega

/-- Settles O55: the CSR at each offset, and what it reads. -/
theorem registerReadsFollowTheMap : Obligations.RegisterReadsFollowTheMap := by
  intro s rest h
  have hread : ∀ {off : Nat} {v : Word} (c : Csr), csrAt off = some c → s.readCsr c = v →
      s.pending = .read .w32 (s.cfg.base + off) :: rest →
      step s = .next { s with pending := rest, response := .word v } := fun c hc hv hp => hv ▸ step_read_csr h.config hc hp
  obtain ⟨hacc, hpbuf, hrsp, htx, hrx, hpos, hend, hlen, hoff⟩ := h.readCsr_eq
  obtain ⟨hcfg0, hcfg1, hcfg2, hcfg3, hcfg4⟩ := cfgWord_eq h.config
  simp only [List.forall_mem_cons, List.not_mem_nil, false_imp_iff, forall_const, and_true]
  exact ⟨hread .cmd rfl rfl, hread .result rfl rfl, hread .status rfl rfl, hread .qcount rfl rfl, hread .accLen rfl hacc,
    hread .pbufLen rfl hpbuf, hread .rspLen rfl hrsp, hread .txLen rfl htx, hread .data rfl rfl, hread .rxOff rfl hrx,
    hread .feedPos rfl hpos, hread .feedEnd rfl hend, hread .dspType rfl (zextByte_eq _), hread .dspLen rfl hlen,
    hread .dspOff rfl hoff, hread (.cfg 0) rfl hcfg0, hread (.cfg 1) rfl hcfg1, hread (.cfg 2) rfl hcfg2,
    hread (.cfg 3) rfl hcfg3, hread (.cfg 4) rfl hcfg4⟩

/-! ### The handler table -/

theorem csrAt_hen {k : Nat} (h : k < 8) : csrAt (0x040 + 4 * k) = some (.hen k) := by
  interval_cases k <;> rfl

/-- HENk's bits are those of types 32k to 32k+31. -/
theorem getLsbD_henWord (s : State) (k : Nat) {j : Nat} (h : j < 32) :
    (s.henWord k).getLsbD j = s.hen.getLsbD (32 * k + j) := by
  simp [State.henWord, h]

theorem getLsbD_henMask (k : Nat) {ty : Nat} (h : ty < 256) : (henMask k).getLsbD ty = decide (ty / 32 = k) := by
  have hones : 0xFFFFFFFF#256 = (BitVec.allOnes 32).setWidth 256 := by decide
  rw [henMask, hones, BitVec.getLsbD_shiftLeft, BitVec.getLsbD_setWidth, BitVec.getLsbD_allOnes]
  by_cases hk : ty / 32 = k
  · simp only [hk, decide_true, Bool.and_eq_true, Bool.not_eq_true', decide_eq_true_iff, decide_eq_false_iff_not]
    omega
  · simp only [hk, decide_false, Bool.and_eq_false_iff, Bool.not_eq_false', decide_eq_true_iff, decide_eq_false_iff_not]
    omega

/-- The written word as HENk places it: its bits lie at types 32k to 32k+31. -/
theorem getLsbD_placed (w : Word) (k : Nat) {ty : Nat} (h : ty < 256) :
    (w.setWidth 256 <<< (32 * k)).getLsbD ty = (decide (ty / 32 = k) && w.getLsbD (ty % 32)) := by
  rw [BitVec.getLsbD_shiftLeft, BitVec.getLsbD_setWidth]
  by_cases hk : ty / 32 = k
  · have hbit : ty - 32 * k = ty % 32 := by omega
    have hlow : ¬ ty < 32 * k := by omega
    simp [hk, hbit, hlow, h]
    omega
  · rcases Nat.lt_or_ge ty (32 * k) with hlow | hlow
    · simp [hk, hlow]
    · have hhigh : w.getLsbD (ty - 32 * k) = false := BitVec.getLsbD_of_ge w _ (by omega)
      simp [hk, hhigh]

theorem getLsbD_writeHen (s : State) (k : Nat) (w : Word) {ty : Nat} (h : ty < 256) : (s.writeHen k w).hen.getLsbD ty =
    if ty / 32 = k then w.getLsbD (ty % 32) && s.cfg.knownTypes.getLsbD ty else s.hen.getLsbD ty := by
  rw [State.writeHen_hen, BitVec.getLsbD_or, BitVec.getLsbD_and, BitVec.getLsbD_not, getLsbD_henMask k h, BitVec.getLsbD_and,
    getLsbD_placed w k h]
  by_cases hk : ty / 32 = k <;> simp [hk, h]

/-- Settles O56: the bits of HENk read and written. -/
theorem handlerTableReadsAndWrites : Obligations.HandlerTableReadsAndWrites := by
  intro s k rest h hk
  refine ⟨fun hp => ?_, fun w hp => ?_⟩ <;> rw [Nat.add_assoc] at hp
  · exact ⟨_, step_read_csr h (csrAt_hen hk) hp, fun _ => getLsbD_henWord s k⟩
  · exact ⟨_, step_write_csr h (csrAt_hen hk) nofun hp, rfl, fun _ => getLsbD_writeHen _ k w⟩

/-! ### Writes -/

theorem warl_eq (w : Word) (size : Nat) : warl w size = min (w.toNat % 65536) size := by
  simp [warl]

/-- Settles O57: the CSR at each offset, and its write rule. -/
theorem registerWritesFollowTheMap : Obligations.RegisterWritesFollowTheMap := by
  intro s u w rest h hu
  subst hu
  have hwrite : ∀ {off : Nat} {t : State} (c : Csr), csrAt off = some c → c ≠ .cmd →
      ({ s with pending := rest, response := .done } : State).writeCsr w c = t →
      s.pending = .write32 (s.cfg.base + off) w :: rest → step s = .next t := fun c hc hcmd ht hp =>
    ht ▸ step_write_csr h hc hcmd hp
  refine ⟨hwrite .status rfl nofun rfl, hwrite .pbufLen rfl nofun (by rw [← warl_eq]; rfl),
    hwrite .rspLen rfl nofun (by rw [← warl_eq]; rfl), hwrite .data rfl nofun rfl,
    hwrite .rxOff rfl nofun (by rw [← warl_eq]; rfl), ?_⟩
  simp only [List.forall_mem_cons, List.not_mem_nil, false_imp_iff, forall_const, and_true]
  exact ⟨hwrite .result rfl nofun rfl, hwrite .qcount rfl nofun rfl, hwrite .accLen rfl nofun rfl, hwrite .txLen rfl nofun rfl,
    hwrite .feedPos rfl nofun rfl, hwrite .feedEnd rfl nofun rfl, hwrite .dspType rfl nofun rfl, hwrite .dspLen rfl nofun rfl,
    hwrite .dspOff rfl nofun rfl, hwrite (.cfg 0) rfl nofun rfl, hwrite (.cfg 1) rfl nofun rfl, hwrite (.cfg 2) rfl nofun rfl,
    hwrite (.cfg 3) rfl nofun rfl, hwrite (.cfg 4) rfl nofun rfl⟩

end Sys2Proof.Machine

/-! # The address map and the bus port (20_memory.md): O9, O54, O59 and O60

Three facts carry the family: an access inside the window always has a next state, the answer of a read does not depend on the
port, and each byte of a buffer window, and of DFRAME, is the target of its own offset. -/

namespace Sys2Proof.Machine

/-! ## Runs inside the window (20_memory.md R60) -/

theorem atAddress_inside {addr off : Nat} {s : State} (run : Nat → Host.Outcome State Fault Refusal)
    (h : offsetOf s.cfg addr = some off) : atAddress addr s run = run off := by
  rw [atAddress, h]

theorem atAddress_outside {addr : Nat} {s : State} (run : Nat → Host.Outcome State Fault Refusal)
    (h : offsetOf s.cfg addr = none) : atAddress addr s run = .fault .outsideWindow := by
  rw [atAddress, h]

theorem offsetOf_outside {c : Config} {addr : Nat} (h : addr < c.base ∨ c.base + 0x8000 ≤ addr) : offsetOf c addr = none :=
  if_neg (by rw [windowSize]; omega)

/-- An access inside the window is served, whatever it does there. -/
theorem serve_next_of_inWindow {a : Access} {s : State} (h : a.inWindow s.cfg = true) : ∃ t, serve a s = .next t := by
  cases a with
  | reset => exact ⟨_, rfl⟩
  | read w addr | write8 addr v | write16 addr v =>
    obtain ⟨off, ho⟩ := Option.isSome_iff_exists.mp h
    exact ⟨_, atAddress_inside _ ho⟩
  | write32 addr v =>
    obtain ⟨off, ho⟩ := Option.isSome_iff_exists.mp h
    obtain ⟨t, ht⟩ := busWrite32_next off v s
    exact ⟨t, (atAddress_inside _ ho).trans ht⟩

theorem State.wellAddressed_iff (s : State) : s.wellAddressed = true ↔ ∀ a ∈ s.pending, a.inWindow s.cfg = true :=
  List.all_eq_true

theorem step_next_of_wellAddressed {s : State} (h : s.cfg.wellFormed = true) (hw : s.wellAddressed = true) :
    ∃ t, step s = .next t := by
  cases hp : s.pending with
  | nil => exact ⟨s, step_of_no_access h hp⟩
  | cons a rest =>
    have ha := s.wellAddressed_iff.mp hw a (hp ▸ List.mem_cons_self ..)
    obtain ⟨t, ht⟩ := serve_next_of_inWindow (s := { s with pending := rest }) ha
    exact ⟨t, (step_of_access h hp).trans ht⟩

/-- What a step leaves on the port was there before, and the window does not move. -/
theorem step_keeps_wellAddressed {s t : State} (h : step s = .next t) (hw : s.wellAddressed = true) :
    t.wellAddressed = true := by
  rw [State.wellAddressed_iff] at hw ⊢
  rw [(step_kept h).cfg]
  exact fun a ha => hw a ((step_served h).pending_subset ha)

/-- The invariant of a safe run: a legal configuration and a well-addressed port. -/
theorem wellAddressed_steps (s : State) (h : s.cfg.wellFormed = true ∧ s.wellAddressed = true) :
    ∃ t, step s = .next t ∧ t.cfg.wellFormed = true ∧ t.wellAddressed = true := by
  obtain ⟨hc, hw⟩ := h
  obtain ⟨t, ht⟩ := step_next_of_wellAddressed hc hw
  exact ⟨t, ht, (step_kept ht).cfg ▸ hc, step_keeps_wellAddressed ht hw⟩

theorem run_succ_of_step {M : Host.Core} {s t : M.State} (k : Nat) (h : M.step s = .next t) : M.run (k + 1) s = M.run k t := by
  rw [Host.Core.run, h]

/-- An invariant under which a machine steps, and which its step keeps, lets it run for any number of steps. -/
theorem run_next_of_invariant {M : Host.Core} {P : M.State → Prop} (hstep : ∀ s, P s → ∃ t, M.step s = .next t ∧ P t)
    (k : Nat) {s : M.State} (h : P s) : ∃ t, M.run k s = .next t ∧ P t := by
  induction k generalizing s with
  | zero => exact ⟨s, rfl, h⟩
  | succ k ih =>
    obtain ⟨t, ht, hPt⟩ := hstep s h
    rw [run_succ_of_step k ht]
    exact ih hPt

/-- Settles O9: the invariant of a safe run, and the fault of a read outside. -/
theorem wellAddressedRunsNeverStop : Obligations.WellAddressedRunsNeverStop := by
  refine ⟨fun k s h hw => ?_, fun s w addr rest h hp hout => ?_⟩
  · obtain ⟨t, ht, _⟩ := run_next_of_invariant (M := Sys2Proof.core) wellAddressed_steps k ⟨h, hw⟩
    exact ⟨t, ht⟩
  · exact (step_of_access h hp).trans (atAddress_outside _ (offsetOf_outside hout))

/-! ## Reads (20_memory.md R72, R77) -/

/-- A byte of the block is read alike whatever the port holds. -/
theorem readByte_port (s : State) (rest : List Access) (r : Response) (g : ByteTarget) :
    ({ s with pending := rest, response := r } : State).readByte g = s.readByte g := by
  cases g <;> rfl

theorem readCsr_port (s : State) (rest : List Access) (r : Response) (c : Csr) :
    ({ s with pending := rest, response := r } : State).readCsr c = s.readCsr c := by
  cases c <;> rfl

theorem busRead_byte_port {s : State} {off : Nat} {g : ByteTarget} (h : byteTarget s.cfg off = some g) (rest : List Access)
    (r : Response) : busRead .w8 off { s with pending := rest, response := r } =
      { s with pending := rest, response := .byte (s.readByte g) } := by
  rw [busRead_byte (s := { s with pending := rest, response := r }) h, readByte_port]
  rfl

theorem busRead_csr_port {s : State} {off : Nat} {c : Csr} (h : csrAt off = some c) (rest : List Access) (r : Response) :
    busRead .w32 off { s with pending := rest, response := r } =
      { s with pending := rest, response := .word (s.readCsr c) } := by
  rw [busRead_csr h, readCsr_port]
  rfl

/-- A read sees the block and not the port: one answer serves whatever is pending and was answered last. -/
theorem busRead_port (w : Width) (off : Nat) (s : State) : ∃ r, ∀ rest r',
    busRead w off { s with pending := rest, response := r' } = { s with pending := rest, response := r } := by
  cases w with
  | w8 =>
    cases ht : byteTarget s.cfg off with
    | some g => exact ⟨_, busRead_byte_port ht⟩
    | none => exact ⟨.busError, fun _ _ => busRead_no_byte ht⟩
  | w16 => exact ⟨.busError, fun _ _ => rfl⟩
  | w32 =>
    cases hc : csrAt off with
    | some c => exact ⟨_, busRead_csr_port hc⟩
    | none => exact ⟨.busError, fun _ _ => busRead_no_csr hc⟩

/-- A read that completes has a legal configuration and an address in the window. -/
theorem read_completes {s t : State} {w : Width} {addr : Nat} {rest : List Access} (hp : s.pending = .read w addr :: rest)
    (h : step s = .next t) :
    s.cfg.wellFormed = true ∧ ∃ off, off < 0x8000 ∧ addr = s.cfg.base + off := by
  obtain ⟨hc, ⟨hnil, _⟩ | ⟨a, rest', hp', hserve⟩⟩ := servePort_cases h
  · cases hp.symm.trans hnil
  · cases hp.symm.trans hp'
    obtain ⟨off, ho, _⟩ := atAddress_next hserve
    obtain ⟨haddr, hlt⟩ := offsetOf_some ho
    exact ⟨hc, off, hlt, haddr⟩

/-- Settles O54: both reads get the answer that `busRead_port` gives. -/
theorem readsHaveNoSideEffect : Obligations.ReadsHaveNoSideEffect := by
  intro s t w addr rest hp hstep
  obtain ⟨hc, off, ho, rfl⟩ := read_completes hp hstep
  obtain ⟨r, hr⟩ := busRead_port w off s
  have hfirst := step_read hc ho hp
  rw [hr _ s.response, hstep] at hfirst
  cases hfirst
  refine ⟨rfl, ?_⟩
  rw [step_read (s := { s with pending := .read w (s.cfg.base + off) :: rest, response := r }) hc ho rfl]
  exact congrArg _ (hr rest r)

/-! ## The windows (20_memory.md R61 to R65) -/

/-- A byte of a buffer's window is reached at its offset: no window exceeds 4 KiB, so the offset's quotient names the buffer. -/
theorem byteTarget_window {c : Config} (hc : c.wellFormed = true) {b : Buffer} {k : Nat} (hk : k < b.size c) :
    byteTarget c (b.start + k) = some (.buffer b k) := by
  have hlt : k < 0x1000 := Nat.lt_of_lt_of_le hk (Buffer.size_le hc b)
  have hmod : (b.start + k) % 0x1000 = k := by cases b <;> simp only [Buffer.start] <;> omega
  have hdiv : (b.start + k) / 0x1000 = b.start / 0x1000 := by cases b <;> simp only [Buffer.start] <;> omega
  rw [byteTarget, hmod, hdiv]
  cases b <;> exact if_pos hk

theorem byteTarget_dframe_window (c : Config) {k : Nat} (hk : k < 0x1000) :
    byteTarget c (0x6000 + k) = some (.dframe k) := by
  have hmod : (0x6000 + k) % 0x1000 = k := by omega
  have hdiv : (0x6000 + k) / 0x1000 = 6 := by omega
  simp only [byteTarget, hmod, hdiv]

theorem byteTarget_lt {c : Config} (hc : c.wellFormed = true) {off : Nat} {g : ByteTarget} (h : byteTarget c off = some g) :
    off < 0x8000 := by
  cases g with
  | buffer b k =>
    obtain ⟨hk, rfl⟩ := byteTarget_buffer h
    have hsize := Buffer.size_le hc b
    cases b <;> simp only [Buffer.start] <;> omega
  | dframe k =>
    obtain ⟨_, hle⟩ := byteTarget_dframe h
    omega

section ByteStep

variable {s : State} {rest : List Access} {off : Nat} {g : ByteTarget}

theorem step_read_byte (h : s.cfg.wellFormed = true) (hg : byteTarget s.cfg off = some g)
    (hp : s.pending = .read .w8 (s.cfg.base + off) :: rest) :
    step s = .next { s with pending := rest, response := .byte (s.readByte g) } :=
  (step_read h (byteTarget_lt h hg) hp).trans (congrArg _ (busRead_byte_port hg rest s.response))

theorem step_write_byte {v : Byte} (h : s.cfg.wellFormed = true) (hg : byteTarget s.cfg off = some g)
    (hp : s.pending = .write8 (s.cfg.base + off) v :: rest) :
    step s = .next ({ s with pending := rest, response := .done }.writeByte v g) :=
  (step_write8 h (byteTarget_lt h hg) hp).trans (congrArg _ (busWrite8_byte hg))

end ByteStep

/-- The host writes three of the buffers (20_memory.md R63). -/
theorem writeByte_writable (s : State) (v : Byte) {b : Buffer} (k : Nat) (hb : b = .pbuf ∨ b = .rbuf ∨ b = .rxbuf) :
    s.writeByte v (.buffer b k) = s.putByte b k v := by
  rcases hb with rfl | rfl | rfl <;> rfl

theorem writeByte_readOnly (s : State) (v : Byte) {b : Buffer} (k : Nat) (hb : b = .txbuf ∨ b = .acc) :
    s.writeByte v (.buffer b k) = s := by
  rcases hb with rfl | rfl <;> rfl

/-- Settles O59: the target of each offset, and what a read or write of that target does. -/
theorem windowAccessesReachTheirByte : Obligations.WindowAccessesReachTheirByte := by
  intro s k rest h
  refine ⟨fun b hk hp => ?_, fun b v hb hk hp => ?_, fun b v hb hk hp => ?_, fun v hk hp => ?_⟩ <;> rw [Nat.add_assoc] at hp
  · exact step_read_byte h (byteTarget_window h hk) hp
  · have hstep := step_write_byte h (byteTarget_window h hk) hp
    rw [writeByte_writable _ v k hb] at hstep
    exact ⟨_, hstep, rfl, fun a => (Memory.get_put s.mem (b.start + k) v a).trans (if_congr eq_comm rfl rfl)⟩
  · have hstep := step_write_byte h (byteTarget_window h hk) hp
    rwa [writeByte_readOnly _ v k hb] at hstep
  · exact step_write_byte h (byteTarget_dframe_window s.cfg hk) hp

/-- The frame the DFRAME view shows, policy by policy. -/
theorem State.dframeByte_eq (s : State) (k : Nat) : s.dframeByte k =
    if s.phase = .dispatch ∧ k < s.dspLen then
      (if s.cfg.policy = .accumulate then s.byteAt .acc k else s.byteAt .rxbuf (s.dspOff + k))
    else 0x00#8 := by
  unfold State.dframeByte
  cases s.cfg.policy <;> rfl

/-- Settles O60: the target of an offset in DFRAME is the view's byte. -/
theorem dframeShowsTheDispatchedFrame : Obligations.DframeShowsTheDispatchedFrame := by
  intro s k rest v h hk hp hv
  rw [Nat.add_assoc] at hp
  rw [hv, ← State.dframeByte_eq]
  exact step_read_byte h (byteTarget_dframe_window s.cfg (Nat.lt_succ_of_le hk)) hp

end Sys2Proof.Machine

/-! # Command words (30_encoding.md): O1, O2, O3, O4 and O16

A command word is its three fields (R100), and the decoder selects by OP alone (R101, R104). So a word is decoded once it is known
which command its OP selects (`decode_of_opcode`, `decode_ok`) and how that command takes its operands from B and N
(`Instr.withOperands`). The obligations about words follow. -/

namespace Sys2Proof

/-! ## A word and its fields (R100) -/

theorem cmdWord_fields (w : Word) : cmdWord (opField w) (bField w) (nField w) = w := by
  simp only [cmdWord, nField, BitVec.ofNat_toNat, BitVec.setWidth_eq, opField, bField]
  rw [BitVec.extractLsb'_append_extractLsb'_eq_extractLsb' (by decide),
    BitVec.extractLsb'_append_extractLsb'_eq_extractLsb' (by decide)]
  exact BitVec.extractLsb'_eq_self

/-- A mask made of one mask for each field acts field by field. -/
theorem cmdWord_and (op b opMask bMask : Byte) (n nMask : Nat) :
    cmdWord op b n &&& cmdWord opMask bMask nMask = cmdWord (op &&& opMask) (b &&& bMask) (n &&& nMask) := by
  simp only [cmdWord, BitVec.ofNat_and]
  exact BitVec.and_append.trans (congrArg (· ++ _) BitVec.and_append)

theorem cmdWord_keepAll (op b : Byte) (n : Nat) : cmdWord op b n &&& 0xFFFFFFFF#32 = cmdWord op b n := BitVec.and_allOnes

theorem cmdWord_keepOp (op b : Byte) (n : Nat) : cmdWord op b n &&& 0xFF000000#32 = cmdWord op 0#8 0 := by
  have h := cmdWord_and op b 0xFF#8 0#8 n 0
  rwa [Nat.and_zero, BitVec.and_zero, show op &&& 0xFF#8 = op from BitVec.and_allOnes] at h

theorem cmdWord_keepOpN (op b : Byte) (n : Nat) : cmdWord op b n &&& 0xFF00FFFF#32 = cmdWord op 0#8 n := by
  have h := cmdWord_and op b 0xFF#8 0#8 n 0xFFFF
  rw [BitVec.and_zero, show op &&& 0xFF#8 = op from BitVec.and_allOnes] at h
  refine h.trans ?_
  simp only [cmdWord, BitVec.ofNat_and]
  exact congrArg (_ ++ ·) BitVec.and_allOnes

/-! ## A command's operands (R101) -/

/-- The command of the same row of the opcode map, with its operands taken from the fields B and N. -/
def Instr.withOperands (b : Byte) (n : Nat) : Instr → Instr
  | .feed _ => .feed n
  | .ack => .ack
  | .push => .push
  | .pop _ => .pop n
  | .count => .count
  | .cstatus _ => .cstatus n
  | .prepare _ _ => .prepare b n
  | .prepareRsp _ _ => .prepareRsp b n
  | .valreq _ _ => .valreq b n
  | .valrsp _ _ => .valrsp b n
  | .pcalcByte _ _ => .pcalcByte b.toNat n
  | .pchkByte _ _ => .pchkByte b.toNat n
  | .psetByte _ _ => .psetByte b.toNat n
  | .pcalcBit _ _ => .pcalcBit b.toNat n
  | .pchkBit _ _ => .pchkBit b.toNat n
  | .psetBit _ _ => .psetBit b.toNat n
  | .pcalcNone => .pcalcNone
  | .pchkNone => .pchkNone
  | .psetNone => .psetNone
  | .get16 _ => .get16 n
  | .get32 _ => .get32 n
  | .put16 _ => .put16 n
  | .put32 _ => .put32 n

theorem fitsN_iff (n : Nat) : fitsN n = true ↔ n < 65536 := decide_eq_true_iff

theorem fitsB_iff (v : Nat) : fitsB v = true ↔ v < 256 := decide_eq_true_iff

theorem Instr.nOperand_lt {i : Instr} (h : i.wellFormed = true) : i.nOperand < 65536 := by
  cases i with
  | ack | push | count | pcalcNone | pchkNone | psetNone => exact Nat.zero_lt_succ _
  | feed | pop | cstatus | get16 | get32 | put16 | put32 | prepare | prepareRsp | valreq | valrsp => exact (fitsN_iff _).mp h
  | pcalcByte | pchkByte | psetByte | pcalcBit | pchkBit | psetBit => exact (fitsN_iff _).mp (Bool.and_eq_true_iff.mp h).2

/-- The operands that the encoder writes are the command's own: a byte holds every number below 256. -/
theorem Instr.withOperands_own {i : Instr} (h : i.wellFormed = true) : i.withOperands i.bOperand i.nOperand = i := by
  cases i with
  | pcalcByte last | pchkByte last | psetByte last | pcalcBit last | pchkBit last | psetBit last =>
    have hlast : last < 256 := (fitsB_iff _).mp (Bool.and_eq_true_iff.mp h).1
    simp only [Instr.withOperands, Instr.bOperand, Instr.nOperand, BitVec.toNat_ofNat, Nat.mod_eq_of_lt hlast]
  | feed | ack | push | pop | count | cstatus | prepare | prepareRsp | valreq | valrsp | pcalcNone | pchkNone | psetNone | get16
  | get32 | put16 | put32 => rfl

theorem Instr.wellFormed_withOperands (i : Instr) (b : Byte) {n : Nat} (hn : n < 65536) :
    (i.withOperands b n).wellFormed = true := by
  have hN : fitsN n = true := (fitsN_iff n).mpr hn
  have hB : fitsB b.toNat = true := (fitsB_iff _).mpr b.isLt
  cases i with
  | ack | push | count | pcalcNone | pchkNone | psetNone => rfl
  | feed | pop | cstatus | get16 | get32 | put16 | put32 | prepare | prepareRsp | valreq | valrsp => exact hN
  | pcalcByte | pchkByte | psetByte | pcalcBit | pchkBit | psetBit => exact Bool.and_eq_true_iff.mpr ⟨hB, hN⟩

/-- The encoder writes the fields that the command uses, and 0 in the others (R103). -/
theorem encode_withOperands (i : Instr) (b : Byte) (n : Nat) :
    encode (i.withOperands b n) = cmdWord i.opcode b n &&& Machine.usedBits i := by
  cases i with
  | ack | push | count | pcalcNone | pchkNone | psetNone => exact (cmdWord_keepOp _ b n).symm
  | feed | pop | cstatus | get16 | get32 | put16 | put32 => exact (cmdWord_keepOpN _ b n).symm
  | prepare | prepareRsp | valreq | valrsp => exact (cmdWord_keepAll _ b n).symm
  | pcalcByte | pchkByte | psetByte | pcalcBit | pchkBit | psetBit =>
    refine Eq.trans ?_ (cmdWord_keepAll _ b n).symm
    exact congrArg (cmdWord _ · n) ((BitVec.ofNat_toNat 8 b).trans (BitVec.setWidth_eq b))

/-! ## The decoder selects by OP (R104) -/

/-- A word with a command's OP is that command, with the word's B and N. -/
theorem decode_of_opcode {w : Word} {i : Instr} (h : opField w = i.opcode) :
    decode w = .ok (i.withOperands (bField w) (nField w)) := by
  unfold decode
  rw [h]
  cases i <;> rfl

/-- A word that decodes has the OP of its command, and the command's operands are the word's B and N. -/
theorem decode_ok {w : Word} {i : Instr} (h : decode w = .ok i) :
    opField w = i.opcode ∧ i = i.withOperands (bField w) (nField w) := by
  unfold decode at h
  split at h <;> cases h
  all_goals exact ⟨‹_›, rfl⟩

theorem decode_encode {i : Instr} (h : i.wellFormed = true) : decode (encode i) = .ok i := by
  rw [decode_of_opcode (opField_encode i), bField_encode, encode, nField_cmdWord _ _ _ (Instr.nOperand_lt h),
    Instr.withOperands_own h]

/-- Settles O1: the three fields of an encoding are the opcode and the operands of its command. -/
theorem decodeOfEncodeIsTheCommand : Obligations.DecodeOfEncodeIsTheCommand := fun _ => decode_encode

/-- Settles O2: a decoded command is its opcode with the word's operands, which the encoder writes back under `usedBits`. -/
theorem encodeOfDecodeKeepsTheUsedBits : Obligations.EncodeOfDecodeKeepsTheUsedBits := by
  intro w i h
  obtain ⟨hop, hi⟩ := decode_ok h
  constructor
  · rw [hi]
    exact i.wellFormed_withOperands _ (nField_lt w)
  · calc encode i = encode (i.withOperands (bField w) (nField w)) := congrArg encode hi
      _ = cmdWord i.opcode (bField w) (nField w) &&& Machine.usedBits i := encode_withOperands ..
      _ = w &&& Machine.usedBits i := by rw [← hop, cmdWord_fields]

/-! ## The illegal OP values (R106) -/

/-- The ranges of R106. -/
def illegalOps (op : Nat) : Bool :=
  decide (op ≤ 0x0F) || decide (0x12 ≤ op ∧ op ≤ 0x1F) || decide (0x23 ≤ op ∧ op ≤ 0x2F) ||
  decide (0x33 ≤ op ∧ op ≤ 0x3F) || decide (0x42 ≤ op ∧ op ≤ 0x4F) || decide (op = 0x53) || decide (op = 0x57) ||
  decide (0x5B ≤ op ∧ op ≤ 0x5F) || decide (0x64 ≤ op ∧ op ≤ 0xFF)

theorem illegalOps_count : ((List.range 256).filter illegalOps).length = 233 := (rfl)

theorem illegalOps_opcode (i : Instr) : illegalOps i.opcode.toNat = false := by cases i <;> rfl

theorem exists_opcode_of_mem_legalOps : ∀ op ∈ legalOps, ∃ i : Instr, i.opcode = op := by
  simp only [legalOps, List.forall_mem_cons, List.not_mem_nil]
  exact ⟨⟨.feed 0, rfl⟩, ⟨.ack, rfl⟩, ⟨.push, rfl⟩, ⟨.pop 0, rfl⟩, ⟨.count, rfl⟩, ⟨.cstatus 0, rfl⟩, ⟨.prepare 0 0, rfl⟩,
    ⟨.prepareRsp 0 0, rfl⟩, ⟨.valreq 0 0, rfl⟩, ⟨.valrsp 0 0, rfl⟩, ⟨.pcalcByte 0 0, rfl⟩, ⟨.pchkByte 0 0, rfl⟩,
    ⟨.psetByte 0 0, rfl⟩, ⟨.pcalcBit 0 0, rfl⟩, ⟨.pchkBit 0 0, rfl⟩, ⟨.psetBit 0 0, rfl⟩, ⟨.pcalcNone, rfl⟩,
    ⟨.pchkNone, rfl⟩, ⟨.psetNone, rfl⟩, ⟨.get16 0, rfl⟩, ⟨.get32 0, rfl⟩, ⟨.put16 0, rfl⟩, ⟨.put32 0, rfl⟩, nofun⟩

/-- Every OP value outside the ranges is the OP of a command. -/
theorem exists_opcode_of_legal {op : Byte} (h : illegalOps op.toNat = false) : ∃ i : Instr, i.opcode = op := by
  have hmem : op ∈ legalOps := by
    simp only [illegalOps, Bool.or_eq_false_iff, decide_eq_false_iff_not] at h
    simp only [legalOps, List.mem_cons, List.not_mem_nil, or_false, ← BitVec.toNat_inj, BitVec.toNat_ofNat]
    omega
  exact exists_opcode_of_mem_legalOps op hmem

/-- The words that are commands are those with an OP outside the ranges. -/
theorem exists_decode_iff (w : Word) : (∃ i, decode w = .ok i) ↔ illegalOps (opField w).toNat = false := by
  constructor
  · rintro ⟨i, h⟩
    rw [(decode_ok h).1]
    exact illegalOps_opcode i
  · intro h
    obtain ⟨i, hi⟩ := exists_opcode_of_legal h
    exact ⟨_, decode_of_opcode hi.symm⟩

end Sys2Proof

namespace Sys2Proof.Machine

theorem executeCommand_illegal {w : Word} (h : illegalOps (opField w).toNat = true) (s : State) :
    executeCommand w s = .next s.rejectIll := by
  rcases executeCommand_cases w s with ⟨_, _, he⟩ | ⟨i, hd, _⟩
  · exact he
  · exact absurd (h.symm.trans ((exists_decode_iff w).mp ⟨i, hd⟩)) (by decide)

/-- Settles O3: the ranges of R106, the words outside them, and the write of a word inside them to CMD. -/
theorem illegalOpOnlySetsIllcmd : Obligations.IllegalOpOnlySetsIllcmd := by
  refine ⟨illegalOps_count, exists_decode_iff, fun s w rest hc hp hill => ?_⟩
  refine ⟨{ s with pending := rest, response := .done, illCmd := true }, ?_, rfl⟩
  rw [step_write32 (off := 0) hc (by decide) hp, busWrite32_cmd csrAt_zero, executeCommand_illegal hill]
  rfl

/-- Settles O4: each word's OP selects its command, and its fields are numerals. -/
theorem writtenOutCommandWordsDecode : Obligations.WrittenOutCommandWordsDecode :=
  ⟨rfl, rfl, rfl, rfl, rfl, rfl, rfl, rfl, rfl, rfl, rfl⟩

/-! ## The phase refusals (60_exceptions.md R263) -/

/-- Settles O16: FEED, POP, PREPARE and PREPARE_RSP run in IDLE only, ACK in DISPATCH only. -/
theorem wrongPhaseOnlySetsSeqerr : Obligations.WrongPhaseOnlySetsSeqerr := by
  intro s
  constructor
  · intro hdispatch b n
    have hnotIdle : s.phase ≠ .idle := hdispatch ▸ Phase.noConfusion
    exact ⟨onlyIn_refused _ hnotIdle, onlyIn_refused _ hnotIdle, onlyIn_refused _ hnotIdle, onlyIn_refused _ hnotIdle⟩
  · intro hidle
    exact onlyIn_refused _ (hidle ▸ Phase.noConfusion)

end Sys2Proof.Machine

/-! # The frame codec toolkit (40_codec_toolkit.md): O41 to O52

The commands of the toolkit run in both phases, so each has one equation for operands that pass its check and one for the others
(`withParityArgs_eq`, `withBeArgs_eq`). The byte scheme compares the XOR of the covered bytes with the parity byte, so it checks
that the XOR of all of them is 0 (`State.parityResidue`). The bit scheme folds the same XOR to one bit, and that bit is the parity
of the covered 1 bits (`State.toNat_bitParity`), because the number of 1 bits of an XOR has the parity of the sum of the two
numbers (`ones_xor_mod_two`). -/

namespace Sys2Proof.Machine

/-! ## The validators (R124, R125) -/

/-- A validation with the positions of the sentinels written out. -/
theorem validateFrame_eq (hdr tail ty : Byte) (l : Nat) (s : State) :
    validateFrame hdr tail ty l s =
      if l < 4 ∨ s.pbufLen < l then { s with rc := .arg, result := 0#32 }
      else if s.byteAt .pbuf 0 ≠ hdr ∨ s.byteAt .pbuf 1 ≠ ty ∨ s.byteAt .pbuf (l - 1) ≠ tail then
        { s with rc := .frame, result := 0#32 }
      else { s with rc := .ok, result := 0#32 } := rfl

/-- Settles O41: VALREQ is the validation with the request sentinels. -/
theorem valreqChecksLengthThenSentinels : Obligations.ValreqChecksLengthThenSentinels :=
  fun s ty l => congrArg Host.Outcome.next (validateFrame_eq reqHdr reqTail ty l s)

/-- Settles O42: VALRSP is the validation with the response sentinels. -/
theorem valrspChecksLengthThenSentinels : Obligations.ValrspChecksLengthThenSentinels :=
  fun s ty l => congrArg Host.Outcome.next (validateFrame_eq rspHdr rspTail ty l s)

/-! ## The operand checks (R123, R136) and the ends of a command -/

@[simp] theorem State.byteAt_finishOk (s : State) (v : Word) (b : Buffer) (i : Nat) :
    (s.finishOk v).byteAt b i = s.byteAt b i := rfl

@[simp] theorem State.xorRange_finishOk (s : State) (v : Word) (last : Nat) :
    (s.finishOk v).xorRange last = s.xorRange last := rfl

@[simp] theorem State.coveredOnes_finishOk (s : State) (v : Word) (last : Nat) :
    (s.finishOk v).coveredOnes last = s.coveredOnes last := rfl

theorem State.parityArgsOk_eq_false_iff (s : State) (last pidx : Nat) :
    s.parityArgsOk last pidx = false ↔ ¬ (1 ≤ last ∧ last < pidx ∧ pidx + 1 < s.pbufLen) := by
  rw [← State.parityArgsOk_iff, Bool.not_eq_true]

theorem State.parityArgsOk_congr {s s' : State} (h : s'.pbufLen = s.pbufLen) (last pidx : Nat) :
    s'.parityArgsOk last pidx = s.parityArgsOk last pidx := by
  simp only [State.parityArgsOk, h]

theorem withParityArgs_eq (last pidx : Nat) (run : State → State) (s : State) :
    withParityArgs last pidx run s = if s.parityArgsOk last pidx then run s else s.fail .arg := rfl

theorem withBeArgs_eq (off w : Nat) (run : State → State) (s : State) :
    withBeArgs off w run s = if off + w ≤ s.pbufLen then run s else s.fail .arg := by
  simp only [withBeArgs, State.beArgsOk_iff]

/-- The parity check both schemes end with gives OK exactly when its comparison holds. -/
theorem parityCheck_rc_ok_iff (p : Prop) [Decidable p] (s : State) (v : Word) :
    (if p then s.finishOk v else s.fail .parity).rc = .ok ↔ p := by
  split_ifs with h <;> simp [h]

/-- Its RC and RESULT depend on the comparison and the value compared alone. -/
theorem parityCheck_same (p : Prop) [Decidable p] (s s' : State) (v : Word) :
    (if p then s'.finishOk v else s'.fail .parity).rc = (if p then s.finishOk v else s.fail .parity).rc ∧
    (if p then s'.finishOk v else s'.fail .parity).result = (if p then s.finishOk v else s.fail .parity).result := by
  split_ifs <;> exact ⟨rfl, rfl⟩

/-- The commands that check their operands with ParityArgsOK (R123). -/
def parityCommands (last pidx : Nat) : List Instr :=
  [.pcalcByte last pidx, .pchkByte last pidx, .psetByte last pidx] ++
  [.pcalcBit last pidx, .pchkBit last pidx, .psetBit last pidx]

/-- Operands outside ParityArgsOK end every one of them with ARG, and nothing else changes (R123, R267). -/
theorem exec_parity_badArgs {s : State} {last pidx : Nat} (h : s.parityArgsOk last pidx = false) :
    ∀ i ∈ parityCommands last pidx, exec i s = .next (s.fail .arg) := by
  have harg : ∀ run, withParityArgs last pidx run s = s.fail .arg := fun run => by simp [withParityArgs_eq, h]
  simp only [parityCommands, List.cons_append, List.nil_append, List.forall_mem_cons, List.not_mem_nil]
  exact ⟨congrArg _ (harg _), congrArg _ (harg _), congrArg _ (harg _), congrArg _ (harg _), congrArg _ (harg _),
    congrArg _ (harg _), nofun⟩

/-! ## The byte scheme (R126 to R128) -/

section ByteScheme

variable {s : State} {last pidx : Nat}

theorem exec_pcalcByte (h : s.parityArgsOk last pidx = true) :
    exec (.pcalcByte last pidx) s = .next (s.finishOk (BitVec.ofNat 32 (s.xorRange last).toNat)) := by
  rw [← zextByte_eq]
  exact congrArg _ (if_pos h)

theorem exec_pchkByte (h : s.parityArgsOk last pidx = true) :
    exec (.pchkByte last pidx) s = .next
      (if s.byteAt .pbuf pidx = s.xorRange last then s.finishOk (BitVec.ofNat 32 (s.xorRange last).toNat)
       else s.fail .parity) := by
  rw [← zextByte_eq]
  exact congrArg _ (if_pos h)

theorem exec_psetByte (h : s.parityArgsOk last pidx = true) :
    exec (.psetByte last pidx) s = .next
      ((s.putByte .pbuf pidx (s.xorRange last)).finishOk (BitVec.ofNat 32 (s.xorRange last).toNat)) := by
  rw [← zextByte_eq]
  exact congrArg _ (if_pos h)

/-- The XOR of the covered bytes and the parity byte: what a byte check finds to be 0. -/
def State.parityResidue (s : State) (last pidx : Nat) : Byte := s.xorRange last ^^^ s.byteAt .pbuf pidx

theorem State.parityResidue_eq_zero_iff : s.parityResidue last pidx = 0#8 ↔ s.byteAt .pbuf pidx = s.xorRange last := by
  rw [State.parityResidue, BitVec.xor_eq_zero_iff, eq_comm]

/-- A write at an index past the covered range leaves the XOR reduction as it is. -/
theorem State.xorRange_putByte (h : last < pidx) (v : Byte) : (s.putByte .pbuf pidx v).xorRange last = s.xorRange last :=
  State.xorRange_congr _ _ last fun k _ hk => by rw [State.byteAt_putByte_same, if_neg (by omega)]

/-- Bits flipped in one covered byte are flipped in the XOR reduction. -/
theorem State.xorRange_of_flip {s' : State} {k : Nat} {d : Byte} (hk : 1 ≤ k) (hlast : k ≤ last)
    (hflip : s'.byteAt .pbuf k = s.byteAt .pbuf k ^^^ d) (hsame : ∀ m, m ≠ k → s'.byteAt .pbuf m = s.byteAt .pbuf m) :
    s'.xorRange last = s.xorRange last ^^^ d := by
  induction last with
  | zero => omega
  | succ n ih =>
    rw [State.xorRange_succ, State.xorRange_succ]
    rcases Nat.eq_or_lt_of_le hlast with rfl | hlt
    · rw [State.xorRange_congr s' s n fun m _ hm => hsame m (by omega), hflip, BitVec.xor_assoc]
    · rw [ih (by omega), hsame (n + 1) (by omega), BitVec.xor_assoc, BitVec.xor_assoc, BitVec.xor_comm d]

/-- Bits flipped in one byte that the check reads are flipped in its residue. -/
theorem State.parityResidue_of_flip {s' : State} {k : Nat} {d : Byte} (hpidx : last < pidx)
    (hk : (1 ≤ k ∧ k ≤ last) ∨ k = pidx) (hflip : s'.byteAt .pbuf k = s.byteAt .pbuf k ^^^ d)
    (hsame : ∀ m, m ≠ k → s'.byteAt .pbuf m = s.byteAt .pbuf m) :
    s'.parityResidue last pidx = s.parityResidue last pidx ^^^ d := by
  unfold State.parityResidue
  rcases hk with ⟨hk, hlast⟩ | rfl
  · rw [State.xorRange_of_flip hk hlast hflip hsame, hsame pidx (by omega), BitVec.xor_assoc, BitVec.xor_assoc,
      BitVec.xor_comm d]
  · rw [State.xorRange_congr s' s last fun m _ hm => hsame m (by omega), hflip, BitVec.xor_assoc]

end ByteScheme

/-- Settles O43: the three equations of the scheme, with the XOR reduction as the fold over PBUF[1..last]. -/
theorem byteParityCommandsUseTheXor : Obligations.ByteParityCommandsUseTheXor := by
  rintro s last pidx _ rfl
  rw [← State.xorRange_eq_foldl]
  constructor
  · intro hbad i hi
    have hargs := (s.parityArgsOk_eq_false_iff last pidx).mpr hbad
    exact exec_parity_badArgs hargs i (List.mem_append_left _ hi)
  · intro hlast hpidx hlen
    have hargs := (s.parityArgsOk_iff last pidx).mpr ⟨hlast, hpidx, hlen⟩
    refine ⟨exec_pcalcByte hargs, exec_pchkByte hargs, _, exec_psetByte hargs, rfl, rfl, fun a => ?_, rfl⟩
    rw [State.finishOk_mem, State.putByte_mem, Memory.get_put]
    exact if_congr eq_comm rfl rfl

theorem oneBit_ne_zero : ∀ j < 8, 1#8 <<< j ≠ 0#8 := by decide

/-- Settles O47: the flip turns the residue from 0 to the flipped bit. -/
theorem byteParityCatchesEveryOneBitFlip : Obligations.ByteParityCatchesEveryOneBitFlip := by
  intro s s' t last pidx k j hlast hpidx hlen hlen' hexec hok hj hk hflip hsame
  have hargs := (s.parityArgsOk_iff last pidx).mpr ⟨hlast, hpidx, hlen⟩
  have hargs' := (State.parityArgsOk_congr hlen' last pidx).trans hargs
  have hzero : s.parityResidue last pidx = 0#8 := by
    rw [exec_pchkByte hargs, Host.Outcome.next.injEq] at hexec
    rw [← hexec, parityCheck_rc_ok_iff] at hok
    exact State.parityResidue_eq_zero_iff.mpr hok
  have hfails : ¬ s'.byteAt .pbuf pidx = s'.xorRange last := by
    rw [← State.parityResidue_eq_zero_iff, State.parityResidue_of_flip hpidx hk hflip hsame, hzero, BitVec.zero_xor]
    exact oneBit_ne_zero j hj
  exact ⟨s'.fail .parity, by rw [exec_pchkByte hargs', if_neg hfails], rfl, rfl⟩

/-! ## The parity of the number of 1 bits (R122) -/

/-- Where two predicates differ, counted over a list, has the parity of the two counts together. -/
theorem length_filter_xor_mod_two {α : Type} (p q : α → Bool) (l : List α) :
    (l.filter fun a => p a ^^ q a).length % 2 = ((l.filter p).length + (l.filter q).length) % 2 := by
  induction l with
  | nil => rfl
  | cons a l ih => cases hp : p a <;> cases hq : q a <;> simp [hp, hq] <;> omega

/-- The parity of a count is the exclusive or of the predicate over the list. -/
theorem length_filter_mod_two {α : Type} (p : α → Bool) (l : List α) :
    (l.filter p).length % 2 = (l.foldr (fun a x => p a ^^ x) false).toNat := by
  induction l with
  | nil => rfl
  | cons a l ih => cases hp : p a <;> cases hx : l.foldr (fun a x => p a ^^ x) false <;> simp_all <;> omega

theorem ones_xor_mod_two (x y : Byte) : ones (x ^^^ y) % 2 = (ones x + ones y) % 2 := by
  simp only [ones, BitVec.getLsbD_xor]
  exact length_filter_xor_mod_two _ _ _

/-- The order in which the halving steps bring the bits of a byte down to bit 0. -/
def halvingOrder : List Nat := [0, 4, 2, 6, 1, 5, 3, 7]

theorem halvingOrder_perm : (List.range 8).Perm halvingOrder := by decide

theorem ones_eq_halvingOrder (x : Byte) : ones x = (halvingOrder.filter fun j => x.getLsbD j).length :=
  (halvingOrder_perm.filter _).length_eq

theorem fold8_eq_halvingOrder (x : Byte) :
    fold8 x = BitVec.ofBool (halvingOrder.foldr (fun j p => x.getLsbD j ^^ p) false) := by
  apply BitVec.eq_of_getLsbD_eq
  intro i hi
  obtain rfl : i = 0 := by omega
  simp [fold8, halvingOrder]

/-- The halving steps take in every bit once, so what they leave is the parity of the 1 bits. -/
theorem toNat_fold8 (x : Byte) : (fold8 x).toNat = ones x % 2 := by
  rw [fold8_eq_halvingOrder, BitVec.toNat_ofBool, ones_eq_halvingOrder, length_filter_mod_two]

@[simp] theorem State.coveredOnes_zero (s : State) : s.coveredOnes 0 = 0 := rfl

@[simp] theorem State.coveredOnes_succ (s : State) (k : Nat) :
    s.coveredOnes (k + 1) = s.coveredOnes k + ones (s.byteAt .pbuf (k + 1)) := by
  simp [State.coveredOnes, List.range_succ]

@[simp] theorem coveredFlips_zero (s s' : State) : coveredFlips s s' 0 = 0 := rfl

@[simp] theorem coveredFlips_succ (s s' : State) (k : Nat) : coveredFlips s s' (k + 1) =
    coveredFlips s s' k + ones (s.byteAt .pbuf (k + 1) ^^^ s'.byteAt .pbuf (k + 1)) := by
  simp [coveredFlips, List.range_succ]

/-- The covered 1 bits are those of PBUF[1..last] and no others. -/
theorem State.coveredOnes_congr {s s' : State} {last : Nat}
    (h : ∀ k, 1 ≤ k → k ≤ last → s'.byteAt .pbuf k = s.byteAt .pbuf k) : s'.coveredOnes last = s.coveredOnes last := by
  refine congrArg List.sum (List.map_congr_left fun k hk => ?_)
  rw [h (k + 1) (by omega) (List.mem_range.mp hk)]

theorem ones_xorRange_mod_two (s : State) (last : Nat) : ones (s.xorRange last) % 2 = s.coveredOnes last % 2 := by
  induction last with
  | zero => rw [State.xorRange_zero, State.coveredOnes_zero]; rfl
  | succ k ih =>
    rw [State.xorRange_succ, State.coveredOnes_succ, ones_xor_mod_two]
    omega

/-- Two states' covered ones and the bits in which they differ have an even sum. -/
theorem coveredFlips_mod_two (s s' : State) (last : Nat) :
    coveredFlips s s' last % 2 = (s.coveredOnes last + s'.coveredOnes last) % 2 := by
  induction last with
  | zero => rfl
  | succ k ih =>
    have hbyte := ones_xor_mod_two (s.byteAt .pbuf (k + 1)) (s'.byteAt .pbuf (k + 1))
    rw [coveredFlips_succ, State.coveredOnes_succ, State.coveredOnes_succ]
    omega

theorem State.toNat_bitParity (s : State) (last : Nat) : (s.bitParity last).toNat = s.coveredOnes last % 2 :=
  (toNat_fold8 _).trans (ones_xorRange_mod_two s last)

theorem State.setWidth_bitParity (s : State) (last : Nat) :
    (s.bitParity last).setWidth 32 = BitVec.ofNat 32 (s.coveredOnes last % 2) := by
  rw [← State.toNat_bitParity, BitVec.ofNat_toNat]

/-! ## The bit scheme (R129 to R131) -/

theorem toNat_parityByte (p : BitVec 1) : (parityByte p).toNat = p.toNat :=
  BitVec.toNat_setWidth_of_le (by decide)

/-- The comparison of PCHK_BIT is between bit 0 of the byte and the parity bit. -/
theorem and_one_eq_parityByte_iff (b : Byte) (p : BitVec 1) : b &&& 0x01#8 = parityByte p ↔ b.toNat % 2 = p.toNat := by
  rw [← BitVec.toNat_inj, BitVec.toNat_and, toNat_parityByte]
  exact iff_of_eq (congrArg (· = p.toNat) (Nat.and_one_is_mod b.toNat))

/-- The byte PSET_BIT stores is bits 7..1 of the old byte over the parity bit. -/
theorem and_or_parityByte (b : Byte) (p : BitVec 1) : (b &&& 0xFE#8) ||| parityByte p = b.extractLsb' 1 7 ++ p := by
  apply BitVec.eq_of_getLsbD_eq
  intro i hi
  rw [BitVec.getLsbD_append]
  interval_cases i <;> simp [parityByte]

theorem toNat_and_or_parityByte (b : Byte) (p : BitVec 1) :
    ((b &&& 0xFE#8) ||| parityByte p).toNat = 2 * (b.toNat / 2) + p.toNat := by
  rw [and_or_parityByte, toNat_append_add, BitVec.extractLsb'_toNat, Nat.shiftRight_eq_div_pow]
  have := b.isLt
  omega

section BitScheme

variable {s : State} {last pidx : Nat}

theorem exec_pcalcBit (h : s.parityArgsOk last pidx = true) :
    exec (.pcalcBit last pidx) s = .next (s.finishOk (BitVec.ofNat 32 (s.coveredOnes last % 2))) := by
  rw [← State.setWidth_bitParity]
  exact congrArg _ (if_pos h)

theorem exec_pchkBit (h : s.parityArgsOk last pidx = true) :
    exec (.pchkBit last pidx) s = .next
      (if (s.byteAt .pbuf pidx).toNat % 2 = s.coveredOnes last % 2 then
        s.finishOk (BitVec.ofNat 32 (s.coveredOnes last % 2))
       else s.fail .parity) := by
  rw [← State.setWidth_bitParity, ← State.toNat_bitParity]
  simp only [← and_one_eq_parityByte_iff]
  exact congrArg _ (if_pos h)

/-- The byte PSET_BIT stores (R131). -/
def State.bitParitySet (s : State) (last pidx : Nat) : Byte :=
  (s.byteAt .pbuf pidx &&& 0xFE#8) ||| parityByte (s.bitParity last)

theorem State.toNat_bitParitySet (s : State) (last pidx : Nat) : (s.bitParitySet last pidx).toNat =
    2 * ((s.byteAt .pbuf pidx).toNat / 2) + s.coveredOnes last % 2 := by
  rw [State.bitParitySet, toNat_and_or_parityByte, State.toNat_bitParity]

theorem exec_psetBit (h : s.parityArgsOk last pidx = true) :
    exec (.psetBit last pidx) s = .next
      ((s.putByte .pbuf pidx (s.bitParitySet last pidx)).finishOk (BitVec.ofNat 32 (s.coveredOnes last % 2))) := by
  rw [← State.setWidth_bitParity]
  exact congrArg _ (if_pos h)

/-- A write at an index past the covered range leaves the covered 1 bits as they are. -/
theorem State.coveredOnes_putByte (h : last < pidx) (v : Byte) :
    (s.putByte .pbuf pidx v).coveredOnes last = s.coveredOnes last :=
  State.coveredOnes_congr fun k _ hk => by rw [State.byteAt_putByte_same, if_neg (by omega)]

end BitScheme

/-- Settles O44: the three equations of the scheme, and the byte PSET_BIT stores as a number. -/
theorem bitParityCommandsCountTheOnes : Obligations.BitParityCommandsCountTheOnes := by
  rintro s last pidx _ rfl
  constructor
  · intro hbad i hi
    have hargs := (s.parityArgsOk_eq_false_iff last pidx).mpr hbad
    exact exec_parity_badArgs hargs i (List.mem_append_right _ hi)
  · intro hlast hpidx hlen
    have hargs := (s.parityArgsOk_iff last pidx).mpr ⟨hlast, hpidx, hlen⟩
    refine ⟨exec_pcalcBit hargs, exec_pchkBit hargs, _, exec_psetBit hargs, rfl, rfl, ?_, fun a ha => ?_, rfl⟩
    · rw [State.byteAt_finishOk, State.byteAt_putByte_same, if_pos rfl, State.toNat_bitParitySet]
    · exact Memory.get_put_other _ _ ha.symm

/-- Settles O46: a set stores what the check compares with, and past the covered range, so that the check computes it again. -/
theorem parityCheckAfterSetSucceeds : Obligations.ParityCheckAfterSetSucceeds := by
  intro s last pidx hlast hpidx hlen
  have hargs := (s.parityArgsOk_iff last pidx).mpr ⟨hlast, hpidx, hlen⟩
  constructor
  · refine ⟨_, _, exec_psetByte hargs, exec_pchkByte hargs, (parityCheck_rc_ok_iff ..).mpr ?_⟩
    rw [State.byteAt_finishOk, State.byteAt_putByte_same, if_pos rfl, State.xorRange_finishOk, State.xorRange_putByte hpidx]
  · refine ⟨_, _, exec_psetBit hargs, exec_pchkBit hargs, (parityCheck_rc_ok_iff ..).mpr ?_⟩
    rw [State.byteAt_finishOk, State.byteAt_putByte_same, if_pos rfl, State.toNat_bitParitySet, State.coveredOnes_finishOk,
      State.coveredOnes_putByte hpidx]
    omega

/-- Settles O48: a check passes when the parity byte and the covered ones have an even sum, and the flips have the parity of
both states' sums together. -/
theorem bitParityCountsFlips : Obligations.BitParityCountsFlips := by
  intro s s' last pidx hlast hpidx hlen hlen'
  have hargs := (s.parityArgsOk_iff last pidx).mpr ⟨hlast, hpidx, hlen⟩
  have hargs' := (State.parityArgsOk_congr hlen' last pidx).trans hargs
  refine ⟨_, _, exec_pchkBit hargs, exec_pchkBit hargs', ?_⟩
  rw [parityCheck_rc_ok_iff, parityCheck_rc_ok_iff]
  have hpasses (b c : Nat) : b % 2 = c % 2 ↔ Even (b + c) := by
    rw [Nat.even_iff]
    omega
  have hflips := coveredFlips_mod_two s s' last
  have hsum : (coveredFlips s s' last + ((s.byteAt .pbuf pidx).toNat % 2 + (s'.byteAt .pbuf pidx).toNat % 2)) % 2 =
      ((s'.byteAt .pbuf pidx).toNat + s'.coveredOnes last + ((s.byteAt .pbuf pidx).toNat + s.coveredOnes last)) % 2 := by
    omega
  rw [hsum, ← Nat.even_iff, Nat.even_add, hpasses, hpasses]

/-- Settles O49: the operand check, the reductions and the parity byte are the same in both states. -/
theorem parityChecksReadOnlyCoveredBytes : Obligations.ParityChecksReadOnlyCoveredBytes := by
  intro s s' last pidx hlen hparity hcovered i hi
  have hargs := State.parityArgsOk_congr hlen last pidx
  cases hok : s.parityArgsOk last pidx with
  | false =>
    have hmem : i ∈ parityCommands last pidx := by
      simp only [parityCommands, List.mem_append, List.mem_cons, List.not_mem_nil, or_false] at hi ⊢
      tauto
    exact ⟨_, _, exec_parity_badArgs hok i hmem, exec_parity_badArgs (hargs.trans hok) i hmem, rfl, rfl⟩
  | true =>
    have hok' := hargs.trans hok
    simp only [List.mem_cons, List.not_mem_nil, or_false] at hi
    rcases hi with rfl | rfl
    · refine ⟨_, _, exec_pchkByte hok, exec_pchkByte hok', ?_⟩
      rw [hparity, State.xorRange_congr s' s last hcovered]
      exact parityCheck_same _ s s' _
    · refine ⟨_, _, exec_pchkBit hok, exec_pchkBit hok', ?_⟩
      rw [hparity, State.coveredOnes_congr hcovered]
      exact parityCheck_same _ s s' _

/-! ## The scheme NONE (R132 to R134) -/

/-- Settles O45: none of the three has an operand check, so each ends with OK and 0 by definition. -/
theorem noneParityCommandsAlwaysSucceed : Obligations.NoneParityCommandsAlwaysSucceed := by
  rintro s i (rfl | rfl | rfl) <;> rfl

/-! ## Big-endian fields (R136 to R142) -/

theorem State.toNat_field16 (s : State) (off : Nat) :
    (s.field16 off).toNat = (s.byteAt .pbuf off).toNat * 256 + (s.byteAt .pbuf (off + 1)).toNat :=
  toNat_append_add _ _

theorem State.toNat_field32 (s : State) (off : Nat) : (s.field32 off).toNat =
    (((s.byteAt .pbuf off).toNat * 256 + (s.byteAt .pbuf (off + 1)).toNat) * 256 + (s.byteAt .pbuf (off + 2)).toNat) * 256 +
      (s.byteAt .pbuf (off + 3)).toNat := by
  simp only [State.field32, toNat_append_add, Nat.reducePow]

theorem exec_get16 (off : Nat) (s : State) : exec (.get16 off) s = .next
    (if off + 2 ≤ s.pbufLen then s.finishOk (BitVec.ofNat 32 (s.field16 off).toNat) else s.fail .arg) := by
  rw [BitVec.ofNat_toNat]
  exact congrArg _ (withBeArgs_eq off 2 _ s)

theorem exec_get32 (off : Nat) (s : State) : exec (.get32 off) s = .next
    (if off + 4 ≤ s.pbufLen then s.finishOk (BitVec.ofNat 32 (s.field32 off).toNat) else s.fail .arg) := by
  rw [BitVec.ofNat_toNat, BitVec.setWidth_eq]
  exact congrArg _ (withBeArgs_eq off 4 _ s)

/-- Settles O50: a field as a number is its bytes, most significant first. -/
theorem getReadsABigEndianField : Obligations.GetReadsABigEndianField := by
  intro s off b hb
  constructor
  · rw [exec_get16, State.toNat_field16, hb 0, hb 1]
    rfl
  · rw [exec_get32, State.toNat_field32, hb 0, hb 1, hb 2, hb 3]
    rfl

/-- The bytes PUT16 writes: DATA[15:8], then DATA[7:0] (R140). -/
def dataBytes16 (w : Word) : List Byte := [w.extractLsb' 8 8, w.extractLsb' 0 8]

/-- The bytes PUT32 writes: DATA[31:24] first, DATA[7:0] last (R141). -/
def dataBytes32 (w : Word) : List Byte := [w.extractLsb' 24 8, w.extractLsb' 16 8, w.extractLsb' 8 8, w.extractLsb' 0 8]

theorem exec_put16 (off : Nat) (s : State) : exec (.put16 off) s = .next
    (if off + 2 ≤ s.pbufLen then (s.putBytes .pbuf off (dataBytes16 s.data)).finishOk 0#32 else s.fail .arg) :=
  congrArg _ (withBeArgs_eq off 2 _ s)

theorem exec_put32 (off : Nat) (s : State) : exec (.put32 off) s = .next
    (if off + 4 ≤ s.pbufLen then (s.putBytes .pbuf off (dataBytes32 s.data)).finishOk 0#32 else s.fail .arg) :=
  congrArg _ (withBeArgs_eq off 4 _ s)

section Inside

variable {s : State} {off : Nat}

theorem exec_get16_inside (h : off + 2 ≤ s.pbufLen) :
    exec (.get16 off) s = .next (s.finishOk (BitVec.ofNat 32 (s.field16 off).toNat)) :=
  (exec_get16 off s).trans (congrArg _ (if_pos h))

theorem exec_get32_inside (h : off + 4 ≤ s.pbufLen) :
    exec (.get32 off) s = .next (s.finishOk (BitVec.ofNat 32 (s.field32 off).toNat)) :=
  (exec_get32 off s).trans (congrArg _ (if_pos h))

theorem exec_put16_inside (h : off + 2 ≤ s.pbufLen) :
    exec (.put16 off) s = .next ((s.putBytes .pbuf off (dataBytes16 s.data)).finishOk 0#32) :=
  (exec_put16 off s).trans (congrArg _ (if_pos h))

theorem exec_put32_inside (h : off + 4 ≤ s.pbufLen) :
    exec (.put32 off) s = .next ((s.putBytes .pbuf off (dataBytes32 s.data)).finishOk 0#32) :=
  (exec_put32 off s).trans (congrArg _ (if_pos h))

end Inside

/-- Reading a byte of a field that was put. -/
theorem State.byteAt_put_field (s : State) (off : Nat) {vs : List Byte} {k : Nat} (hk : k < vs.length) :
    ((s.putBytes .pbuf off vs).finishOk 0#32).byteAt .pbuf (off + k) = vs[k] := by
  rw [State.byteAt_finishOk, State.byteAt_putBytes_same, if_pos (by omega), Nat.add_sub_cancel_left,
    List.getD_eq_getElem _ _ hk]

/-- A put writes nothing outside its field. -/
theorem State.get_put_field (s : State) (off : Nat) (vs : List Byte) {a : Nat}
    (ha : a < 0x1000 + off ∨ 0x1000 + off + vs.length ≤ a) :
    ((s.putBytes .pbuf off vs).finishOk 0#32).mem.get a = s.mem.get a := by
  rw [State.finishOk_mem, State.putBytes_mem, Memory.get_putBytes]
  exact if_neg (by simp only [Buffer.start]; omega)

theorem toNat_dataByte (w : Word) (i : Nat) : (w.extractLsb' i 8).toNat = w.toNat / 2 ^ i % 256 := by
  rw [BitVec.extractLsb'_toNat, Nat.shiftRight_eq_div_pow]

theorem toNat_lowByte (w : Word) : (w.extractLsb' 0 8).toNat = w.toNat % 256 := by
  rw [toNat_dataByte, Nat.pow_zero, Nat.div_one]

theorem toNat_highByte (w : Word) : (w.extractLsb' 24 8).toNat = w.toNat / 16777216 := by
  rw [toNat_dataByte]
  have := w.isLt
  omega

/-- Settles O51: the field is written byte by byte, and a byte of DATA is a digit of its number to the base 256. -/
theorem putWritesABigEndianField : Obligations.PutWritesABigEndianField := by
  intro s off
  refine ⟨fun h => ?_, fun h => ?_, fun h => ?_, fun h => ?_⟩
  · rw [exec_put16, if_neg (by omega)]
    rfl
  · rw [exec_put32, if_neg (by omega)]
    rfl
  · have hbyte (k : Nat) (hk : k < 2) :=
      congrArg BitVec.toNat (s.byteAt_put_field off (vs := dataBytes16 s.data) hk)
    refine ⟨_, exec_put16_inside h, rfl, rfl, ?_, ?_, fun a ha => s.get_put_field off (dataBytes16 s.data) ha, rfl⟩
    · exact (hbyte 0 (by decide)).trans (toNat_dataByte s.data 8)
    · exact (hbyte 1 (by decide)).trans (toNat_lowByte s.data)
  · have hbyte (k : Nat) (hk : k < 4) :=
      congrArg BitVec.toNat (s.byteAt_put_field off (vs := dataBytes32 s.data) hk)
    refine ⟨_, exec_put32_inside h, rfl, rfl, ?_, ?_, ?_, ?_, fun a ha => s.get_put_field off (dataBytes32 s.data) ha, rfl⟩
    · exact (hbyte 0 (by decide)).trans (toNat_highByte s.data)
    · exact (hbyte 1 (by decide)).trans (toNat_dataByte s.data 16)
    · exact (hbyte 2 (by decide)).trans (toNat_dataByte s.data 8)
    · exact (hbyte 3 (by decide)).trans (toNat_lowByte s.data)

theorem State.field16_put (s : State) (off : Nat) :
    ((s.putBytes .pbuf off (dataBytes16 s.data)).finishOk 0#32).field16 off = s.data.extractLsb' 0 16 := by
  have hbyte (k : Nat) (hk : k < 2) := s.byteAt_put_field off (vs := dataBytes16 s.data) hk
  have hfirst := hbyte 0 (by decide)
  rw [Nat.add_zero] at hfirst
  rw [State.field16, hfirst, hbyte 1 (by decide)]
  exact BitVec.extractLsb'_append_extractLsb'_eq_extractLsb' (by decide)

theorem State.field32_put (s : State) (off : Nat) :
    ((s.putBytes .pbuf off (dataBytes32 s.data)).finishOk 0#32).field32 off = s.data := by
  have hbyte (k : Nat) (hk : k < 4) := s.byteAt_put_field off (vs := dataBytes32 s.data) hk
  have hfirst := hbyte 0 (by decide)
  rw [Nat.add_zero] at hfirst
  rw [State.field32, hfirst, hbyte 1 (by decide), hbyte 2 (by decide), hbyte 3 (by decide)]
  simp only [dataBytes32, List.getElem_cons_zero, List.getElem_cons_succ]
  rw [BitVec.extractLsb'_append_extractLsb'_eq_extractLsb' (by decide),
    BitVec.extractLsb'_append_extractLsb'_eq_extractLsb' (by decide),
    BitVec.extractLsb'_append_extractLsb'_eq_extractLsb' (by decide)]
  exact BitVec.extractLsb'_eq_self

theorem ofNat_toNat_lowHalf (w : Word) : BitVec.ofNat 32 (w.extractLsb' 0 16).toNat = w &&& 0xFFFF#32 := by
  apply BitVec.eq_of_toNat_eq
  rw [BitVec.toNat_ofNat, BitVec.extractLsb'_toNat, BitVec.toNat_and, Nat.shiftRight_zero]
  exact (Nat.mod_eq_of_lt (by omega)).trans (Nat.and_two_pow_sub_one_eq_mod w.toNat 16).symm

/-- Settles O52: the bytes put are the bytes got, and side by side they are DATA. -/
theorem getAfterPutGivesTheData : Obligations.GetAfterPutGivesTheData := by
  refine fun s off => ⟨fun h => ?_, fun h => ?_⟩
  · refine ⟨_, _, exec_put16_inside h, exec_get16_inside h, rfl, ?_⟩
    rw [State.finishOk_result, State.field16_put, ofNat_toNat_lowHalf]
  · refine ⟨_, _, exec_put32_inside h, exec_get32_inside h, rfl, ?_⟩
    rw [State.finishOk_result, State.field32_put, BitVec.ofNat_toNat, BitVec.setWidth_eq]

end Sys2Proof.Machine

/-! # The frame router (41_router.md): O22, O25 to O30, O20, O23 and O24

`absRun` says in which order bytes reach the accumulator and where it is cut into frames, so what a chunk does is read off
`absRun` on its bytes (`absRun_closes`, `absRun_of_garbage`), by way of how FEED ends in each of its two flows
(`State.Inv.feed_dispatches`, `State.Inv.feed_absorbs`). What the automaton does not show, the bytes of ACC beyond ACC_LEN, is
followed on the machine: `State.Filling` for a frame that overflows, `turnsAcked` for a chunk whose dispatches are all answered. -/

namespace Sys2Proof.Machine

/-! ## ACK's loop as the automaton (R166) -/

/-- ACK empties the accumulator, so the loop it resumes takes bytes. -/
theorem State.Inv.ack_ready {s : State} (h : s.Inv) : ({ s with phase := .idle, accLen := 0 } : State).Accumulating := by
  obtain ⟨hsizes, _⟩ := (Config.wellFormed_iff _).mp h.config
  obtain ⟨⟨hleast, hmost⟩, _⟩ := (Config.sizesOk_iff _).mp hsizes
  exact ⟨rfl, Nat.zero_lt_of_lt hleast, hmost, fun h1 => absurd h1 (Nat.not_succ_le_zero 0),
    fun k _ hk => absurd hk (Nat.not_lt_zero k)⟩

theorem exec_ack_accumulate {s : State} (hdispatch : s.phase = .dispatch) (hp : s.cfg.policy = .accumulate) :
    exec .ack s = .next (runLoop { s with phase := .idle, accLen := 0 }).finishRouter := by
  rw [← ackDispatch_accumulate hp]
  exact onlyIn_accepted _ hdispatch

/-- ACK's loop runs as the automaton does, from the empty sequence over what is left of the chunk. -/
theorem State.Inv.ack_runsAs {s : State} (h : s.Inv) :
    State.RunsAs { s with phase := .idle, accLen := 0 } (runLoop { s with phase := .idle, accLen := 0 })
      (absRun s.cfg.accCap s.routable [] s.unread) := by
  obtain ⟨hle, hend, _⟩ := h.cursors
  exact h.ack_ready.runLoop_runsAs hle (Nat.le_trans hend (Buffer.size_le h.config .rxbuf))

theorem State.RunsAs.accLen_eq {s t : State} {r : Flow × List Byte × List Byte} (h : s.RunsAs t r) :
    t.accLen = r.2.1.length := t.length_accBytes.symm.trans (congrArg List.length h.bytes)

section LoopEnds

variable {s t : State} {acc rest : List Byte}

/-- A loop that runs as an automaton that used up the chunk: no dispatch, and the DSP registers as they were. -/
theorem State.LoopEnds.absorbed (h : s.LoopEnds t) (hr : s.RunsAs t (.cont, acc, rest)) :
    rest = [] ∧ t.phase = .idle ∧ dispatchResult t.phase = 0#32 ∧ t.dspType = s.dspType ∧ t.dspLen = s.dspLen ∧
      t.dspOff = s.dspOff := by
  obtain ⟨hrest, hphase, hdsp⟩ := (h.flow hr).1 rfl
  exact ⟨hrest, hphase, congrArg dispatchResult hphase, hdsp⟩

/-- A loop that runs as an automaton that stopped: the DSP registers describe what it accumulated. -/
theorem State.LoopEnds.suspended (h : s.LoopEnds t) (hr : s.RunsAs t (.suspend, acc, rest)) :
    t.phase = .dispatch ∧ dispatchResult t.phase = 1#32 ∧ t.dspType = acc.getD 1 0#8 ∧ t.dspLen = acc.length ∧
      t.dspOff = 0 := by
  have hhold := (h.flow hr).2 rfl
  exact ⟨hhold.dispatch, congrArg dispatchResult hhold.dispatch, hhold.dspType_eq.trans (congrArg (·.getD 1 0#8) hr.bytes),
    hhold.len.trans hr.accLen_eq, hhold.off⟩

end LoopEnds

/-- Settles O22: how ACK's loop runs (`State.Inv.ack_runsAs`) together with how it ends (`State.Inv.ack_ends`). -/
theorem ackResumesTheByteAutomaton : Obligations.AckResumesTheByteAutomaton := by
  intro s h hdispatch hp
  have hexec := exec_ack_accumulate hdispatch hp
  have hends := h.ack_ends
  have hruns := h.ack_runsAs
  generalize runLoop { s with phase := .idle, accLen := 0 } = t at hexec hends hruns
  rcases hr : absRun s.cfg.accCap s.routable [] s.unread with ⟨flow, acc, rest⟩
  rw [hr] at hruns
  refine ⟨t.finishRouter, flow, acc, rest, hexec, hr, hruns.bytes, hruns.accLen_eq, hruns.left, rfl, ?_, ?_,
    hends.written.outside, ?_⟩
  · rintro rfl
    exact hends.absorbed hruns
  · rintro rfl
    exact hends.suspended hruns
  · rw [show t = _ from hends.same]
    rfl

/-! ## The short form of the byte step's tests (R167) -/

/-- Settles O30: the tail scan is `State.Accumulating.findTail_appendAcc`; a second byte leaves the header as it was. -/
theorem tailScanFindsOnlyTheLastByte : Obligations.TailScanFindsOnlyTheLastByte := by
  intro s b h hidle
  refine ⟨(State.Accumulating.of_inv h hidle).findTail_appendAcc b, fun hne => ?_⟩
  by_contra hlen
  have hpos : s.accLen ≠ 0 := fun hzero => hlen (congrArg (· + 1) hzero)
  refine hne ?_
  rw [s.byteAt_appendAcc, if_neg hpos]
  exact h.accHeader (Nat.one_le_iff_ne_zero.mpr hpos)

/-! ## FEED beyond RXBUF, and the policy WHOLE_FRAME (R164, R168, R169) -/

/-- Settles O20: FEED runs in IDLE, and its first check fails. -/
theorem feedBeyondRxbufIsArg : Obligations.FeedBeyondRxbufIsArg := by
  intro s n hidle hn
  exact (onlyIn_accepted _ hidle).trans (congrArg _ (feedChunk_beyond hn))

theorem exec_feed_wholeFrame {s : State} {n : Nat} (hidle : s.phase = .idle) (hp : s.cfg.policy = .wholeFrame)
    (hn : s.rxOff + n ≤ s.cfg.rxSize) :
    exec (.feed n) s = .next (wholeFrame { s with feedPos := s.rxOff, feedEnd := s.rxOff + n }).finishRouter := by
  rw [← feedChunk_wholeFrame hn hp]
  exact onlyIn_accepted _ hidle

/-- Settles O23: the two cases of the whole-frame decision, on the cursors FEED sets. -/
theorem wholeFrameFeedTakesOneFrame : Obligations.WholeFrameFeedTakesOneFrame := by
  intro s n hidle hp hn
  have hframe := State.chunkIsFrame_iff { s with feedPos := s.rxOff, feedEnd := s.rxOff + n }
  have hlen : s.rxOff + n - s.rxOff = n := Nat.add_sub_cancel_left ..
  rw [exec_feed_wholeFrame hidle hp hn]
  rcases wholeFrame_cases { s with feedPos := s.rxOff, feedEnd := s.rxOff + n } with ⟨hf, hr, hw⟩ | ⟨hnot, hw⟩ <;> rw [hw]
  · obtain ⟨h4, hhdr, htail⟩ := hframe.mp hf
    rw [if_pos ⟨hlen ▸ h4, hhdr, htail, hr⟩]
    dsimp only
    rw [hlen]
    rfl
  · rw [if_neg]
    · show Host.Outcome.next (State.finishOk _ (dispatchResult s.phase)) = _
      rw [hidle]
      rfl
    · rintro ⟨h4, hhdr, htail, hr⟩
      exact hnot ⟨hframe.mpr ⟨hlen.symm ▸ h4, hhdr, htail⟩, hr⟩

/-- Settles O24: with no byte left to take, ACK only ends the dispatch. -/
theorem wholeFrameAckEndsTheDispatch : Obligations.WholeFrameAckEndsTheDispatch := by
  intro s hdispatch hp
  exact (onlyIn_accepted _ hdispatch).trans (congrArg _ (ackDispatch_wholeFrame hp))

/-! ## The frame a dispatch hands out (R170, R178) -/

/-- What 41_router.md R178 says of the frame that `t` shows, for the configuration and the handler table of `s`. -/
def State.HandsOut (s t : State) : Prop :=
  t.dframeByte 0 = 0xAA#8 ∧ t.dframeByte (t.dspLen - 1) = 0x55#8 ∧ t.dframeByte 1 = t.dspType ∧
  s.routable t.dspType = true ∧ 4 ≤ t.dspLen ∧
  (s.cfg.policy = .accumulate → t.dspLen ≤ s.cfg.accCap ∧
    ∀ k, 3 ≤ k → k < t.dspLen - 1 → t.dframeByte k ≠ 0x55#8) ∧
  (s.cfg.policy = .wholeFrame → t.dspLen ≤ s.cfg.rxSize)

/-- During a dispatch in ACCUMULATE, DFRAME shows ACC. -/
theorem State.Holding.dframeByte_eq {s : State} (h : s.Holding) (hp : s.cfg.policy = .accumulate) {k : Nat}
    (hk : k < s.accLen) : s.dframeByte k = s.byteAt .acc k := by
  rw [State.dframeByte_eq, if_pos ⟨h.dispatch, h.len.symm ▸ hk⟩, if_pos hp]

theorem State.Holding.dispatched_eq {s : State} (h : s.Holding) (hp : s.cfg.policy = .accumulate) :
    s.dispatched = (s.accBytes.getD 1 0#8, s.accBytes) := by
  refine Prod.ext h.dspType_eq ?_
  show (List.range s.dspLen).map s.dframeByte = (List.range s.accLen).map (s.byteAt .acc)
  rw [h.len]
  exact List.map_congr_left fun k hk => h.dframeByte_eq hp (List.mem_range.mp hk)

/-- A byte loop in ACCUMULATE that ends in DISPATCH holds a frame from its header to its only tail. -/
theorem State.LoopEnds.handsOut {s t : State} (h : s.LoopEnds t) (hp : s.cfg.policy = .accumulate)
    (hdispatch : t.phase = .dispatch) : s.HandsOut t := by
  obtain ⟨hsame, _, ⟨hacc, _, _⟩ | ⟨hhold, _⟩⟩ := h
  · rw [hacc.idle] at hdispatch
    cases hdispatch
  · have hcfg := hsame.cfg
    have hpol : t.cfg.policy = .accumulate := hcfg ▸ hp
    have hwhole : s.cfg.policy ≠ .wholeFrame := by rw [hp]; decide
    have hleast := hhold.least
    have hfits := hhold.fits
    have hbyte : ∀ k, k < t.accLen → t.dframeByte k = t.byteAt .acc k := fun k hk => hhold.dframeByte_eq hpol hk
    unfold State.HandsOut
    rw [hhold.len, hbyte 0 (by omega), hbyte 1 (by omega), hbyte (t.accLen - 1) (by omega),
      ← State.routable_congr hcfg hsame.hen]
    refine ⟨hhold.header, hhold.tail, hhold.type.symm, hhold.routable, hleast, fun _ => ⟨hcfg ▸ hfits, fun k hk hlt => ?_⟩,
      fun hw => absurd hw hwhole⟩
    rw [hbyte k (by omega)]
    exact hhold.noTail k hk (by omega)

/-- A chunk that WHOLE_FRAME dispatches has a frame's length, header, tail and a routable type. -/
theorem wholeFrame_handsOut {s : State} {n : Nat} (hidle : s.phase = .idle) (hp : s.cfg.policy = .wholeFrame)
    (hn : s.rxOff + n ≤ s.cfg.rxSize)
    (hdispatch : (wholeFrame { s with feedPos := s.rxOff, feedEnd := s.rxOff + n }).phase = .dispatch) :
    s.HandsOut (wholeFrame { s with feedPos := s.rxOff, feedEnd := s.rxOff + n }) := by
  have hlen : s.rxOff + n - s.rxOff = n := Nat.add_sub_cancel_left ..
  have hacc : s.cfg.policy ≠ .accumulate := by rw [hp]; decide
  rcases wholeFrame_cases { s with feedPos := s.rxOff, feedEnd := s.rxOff + n } with ⟨hf, hr, hw⟩ | ⟨_, hw⟩ <;>
    rw [hw] at hdispatch ⊢
  · obtain ⟨h4, hhdr, htail⟩ := (State.chunkIsFrame_iff _).mp hf
    dsimp only at h4 hhdr htail hr
    rw [hlen] at h4
    unfold State.HandsOut
    simp only [State.dframeByte_eq, hp, hlen]
    refine ⟨?_, ?_, ?_, hr, h4, fun ha => absurd ha (by decide), fun _ => by omega⟩
    · rw [if_pos ⟨trivial, by omega⟩]
      exact hhdr
    · rw [if_pos ⟨trivial, by omega⟩]
      rw [Nat.add_sub_assoc (by omega)] at htail
      exact htail
    · rw [if_pos ⟨trivial, by omega⟩]
      rfl
  · rw [show s.phase = .dispatch from hdispatch] at hidle
    cases hidle

theorem State.Inv.feedChunk_handsOut {s : State} {n : Nat} (h : s.Inv) (hidle : s.phase = .idle)
    (hdispatch : (Machine.feedChunk n s).phase = .dispatch) : s.HandsOut (Machine.feedChunk n s) := by
  rcases Nat.lt_or_ge s.cfg.rxSize (s.rxOff + n) with hn | hn
  · rw [feedChunk_beyond hn] at hdispatch
    cases hidle.symm.trans hdispatch
  · cases hp : s.cfg.policy with
    | accumulate =>
      rw [feedChunk_accumulate hn hp] at hdispatch ⊢
      exact (h.feed_ends hidle).handsOut hp hdispatch
    | wholeFrame =>
      rw [feedChunk_wholeFrame hn hp] at hdispatch ⊢
      exact wholeFrame_handsOut hidle hp hn hdispatch

theorem State.Inv.ackDispatch_handsOut {s : State} (h : s.Inv) (hdispatch : (Machine.ackDispatch s).phase = .dispatch) :
    s.HandsOut (Machine.ackDispatch s) := by
  cases hp : s.cfg.policy with
  | accumulate =>
    rw [ackDispatch_accumulate hp] at hdispatch ⊢
    exact h.ack_ends.handsOut hp hdispatch
  | wholeFrame =>
    rw [ackDispatch_wholeFrame hp] at hdispatch
    cases hdispatch

/-- Settles O29: FEED and ACK, each in both policies. -/
theorem everyDispatchedFrameIsWellFormed : Obligations.EveryDispatchedFrameIsWellFormed := by
  rintro s t i h hexec hdispatch (⟨hidle, n, rfl⟩ | ⟨hs, rfl⟩)
  · obtain rfl : feedChunk n s = t := Host.Outcome.next.inj ((onlyIn_accepted _ hidle).symm.trans hexec)
    exact h.feedChunk_handsOut hidle hdispatch
  · obtain rfl : ackDispatch s = t := Host.Outcome.next.inj ((onlyIn_accepted _ hs).symm.trans hexec)
    exact h.ackDispatch_handsOut hdispatch

/-! ## Frames in the automaton (R174, R176) -/

section AbsFrame

variable {cap : Nat} {routable : Byte → Bool} {F : List Byte}

/-- Garbage before a frame is discarded byte by byte. -/
theorem absRun_of_garbage {G : List Byte} (hG : 0xAA#8 ∉ G) (F : List Byte) :
    absRun cap routable [] (G ++ F) = absRun cap routable [] F := by
  induction G with
  | nil => rfl
  | cons b rest ih =>
    obtain ⟨hb, hrest⟩ := not_or.mp (mt List.mem_cons.mpr hG)
    rw [List.cons_append, absRun, absByte_of_no_header (by simpa using Ne.symm hb)]
    exact ih hrest

theorem take_append_getD {j : Nat} (hj : j < F.length) : F.take j ++ [F.getD j 0#8] = F.take (j + 1) := by
  rw [List.getD_eq_getElem _ _ hj, List.take_append_getElem]

theorem drop_eq_getD_cons {j : Nat} (hj : j < F.length) : F.drop j = F.getD j 0#8 :: F.drop (j + 1) := by
  rw [List.getD_eq_getElem _ _ hj, List.drop_eq_getElem_cons hj]

theorem take_getD_one {k : Nat} (hk : 1 ≤ k) : (F.take (k + 1)).getD 1 0#8 = F.getD 1 0#8 := by
  simp only [List.getD_eq_getElem?_getD, List.getElem?_take_of_lt (Nat.lt_succ_of_le hk)]

theorem head?_take_of_header (hlen : 0 < F.length) (hhdr : F.getD 0 0#8 = 0xAA#8) (j : Nat) :
    (F.take (j + 1)).head? = some 0xAA#8 := by
  rw [List.head?_take, if_neg (Nat.succ_ne_zero j), List.head?_eq_getElem?, List.getElem?_eq_getElem hlen,
    ← List.getD_eq_getElem _ 0#8 hlen, hhdr]

/-- A frame with no tail at indices 3 to k-1 is accumulated up to index k while there is room. -/
theorem absRun_reaches (hhdr : F.getD 0 0#8 = 0xAA#8) {k : Nat} (hk : k ≤ F.length) (hcap : k < cap)
    (hno : ∀ j, 3 ≤ j → j < k → F.getD j 0#8 ≠ 0x55#8) :
    absRun cap routable [] F = absRun cap routable (F.take k) (F.drop k) := by
  induction k with
  | zero => rfl
  | succ k ih =>
    have hlen : (F.take k).length = k := List.length_take_of_le (Nat.le_of_succ_le hk)
    have hhead := head?_take_of_header (Nat.zero_lt_of_lt hk) hhdr k
    have htail : ¬ (4 ≤ (F.take k).length + 1 ∧ F.getD k 0#8 = 0x55#8) := fun ⟨h4, hb⟩ =>
      hno k (by omega) (Nat.lt_succ_self k) hb
    have hstep := absByte_of_no_tail (cap := cap) (routable := routable) (take_append_getD hk ▸ hhead) htail
    rw [hlen, if_neg (Nat.ne_of_lt hcap), take_append_getD hk] at hstep
    rw [ih (Nat.le_of_succ_le hk) (Nat.lt_of_succ_lt hcap) fun j h3 hj => hno j h3 (Nat.lt_succ_of_lt hj),
      drop_eq_getD_cons hk, absRun, hstep]

/-- The first tail at index 3 or above closes the frame: it is dispatched or dropped, and the bytes after it are left. -/
theorem absRun_closes (hhdr : F.getD 0 0#8 = 0xAA#8) {k : Nat} (h3 : 3 ≤ k) (hk : k < F.length) (hcap : k < cap)
    (htail : F.getD k 0#8 = 0x55#8) (hno : ∀ j, 3 ≤ j → j < k → F.getD j 0#8 ≠ 0x55#8) :
    absRun cap routable [] F =
      if routable (F.getD 1 0#8) then (.suspend, F.take (k + 1), F.drop (k + 1))
      else absRun cap routable [] (F.drop (k + 1)) := by
  have hlen : (F.take k).length = k := List.length_take_of_le (Nat.le_of_lt hk)
  have hhead := head?_take_of_header (Nat.zero_lt_of_lt hk) hhdr k
  have hstep := absByte_of_tail (cap := cap) (routable := routable) (take_append_getD hk ▸ hhead) (by omega) htail
  rw [take_append_getD hk, take_getD_one (by omega)] at hstep
  rw [absRun_reaches hhdr (Nat.le_of_lt hk) hcap hno, drop_eq_getD_cons hk, absRun, hstep]
  cases routable (F.getD 1 0#8) <;> rfl

end AbsFrame

/-! ## What FEED leaves in each flow of the automaton (R164) -/

section Feed

variable {s : State} {n : Nat} {acc rest : List Byte}

/-- A chunk the automaton stops in: FEED ends in DISPATCH and hands out what the automaton accumulated. -/
theorem State.Inv.feed_dispatches (h : s.Inv) (hidle : s.phase = .idle) (hp : s.cfg.policy = .accumulate)
    (hn : s.rxOff + n ≤ s.cfg.rxSize)
    (hr : absRun s.cfg.accCap s.routable s.accBytes (s.chunk n) = (.suspend, acc, rest)) :
    ∃ t, exec (.feed n) s = .next t ∧ t.phase = .dispatch ∧ t.result = 1#32 ∧ t.dispatched = (acc.getD 1 0#8, acc) ∧
      t.feedPos + rest.length = s.rxOff + n ∧ t.feedEnd = s.rxOff + n := by
  have hends := h.feed_ends (n := n) hidle
  have hruns := h.feed_runsAs hidle hp hn
  rw [hr] at hruns
  have hhold := (hends.flow hruns).2 rfl
  have hpol := hends.same.cfg.symm ▸ hp
  exact ⟨_, exec_feed_accumulate hidle hp hn, hhold.dispatch, congrArg dispatchResult hhold.dispatch,
    (hhold.dispatched_eq hpol).trans (by rw [hruns.bytes]), hruns.left, hends.same.feedEnd⟩

/-- A chunk the automaton uses up: FEED ends in IDLE with what the automaton accumulated, and no dispatch was made. -/
theorem State.Inv.feed_absorbs (h : s.Inv) (hidle : s.phase = .idle) (hp : s.cfg.policy = .accumulate)
    (hn : s.rxOff + n ≤ s.cfg.rxSize)
    (hr : absRun s.cfg.accCap s.routable s.accBytes (s.chunk n) = (.cont, acc, rest)) :
    ∃ t, exec (.feed n) s = .next t ∧ t.phase = .idle ∧ t.result = 0#32 ∧ t.accLen = acc.length ∧
      t.feedPos = s.rxOff + n ∧ t.dspType = s.dspType ∧ t.dspLen = s.dspLen := by
  have hends := h.feed_ends (n := n) hidle
  have hruns := h.feed_runsAs hidle hp hn
  rw [hr] at hruns
  obtain ⟨rfl, hphase, hresult, htype, hlen, _⟩ := hends.absorbed hruns
  exact ⟨_, exec_feed_accumulate hidle hp hn, hphase, hresult, hruns.accLen_eq, hruns.left, htype, hlen⟩

end Feed

/-- Settles O26: the garbage leaves the accumulator empty, and the frame's first tail is its last byte. -/
theorem garbageThenFrameDispatchesTheFrame : Obligations.GarbageThenFrameDispatchesTheFrame := by
  intro s G F h hidle hp hzero hG h4 hcap hhdr htail hno hn hchunk
  have hlast : F.length - 1 + 1 = F.length := Nat.sub_add_cancel (by omega)
  have hrun : absRun s.cfg.accCap s.routable s.accBytes (s.chunk (G.length + F.length)) =
      if s.routable (F.getD 1 0#8) then (.suspend, F, []) else (.cont, [], []) := by
    rw [State.accBytes_of_accLen_zero hzero, hchunk, absRun_of_garbage hG,
      absRun_closes hhdr (by omega) (by omega) (by omega) htail hno, hlast, List.take_length, List.drop_length]
    rfl
  cases hr : s.routable (F.getD 1 0#8) with
  | true =>
    obtain ⟨t, hexec, hphase, hresult, hframe, hpos, _⟩ := h.feed_dispatches hidle hp hn (hrun.trans (if_pos hr))
    exact ⟨t, hexec, hpos, fun _ => ⟨hphase, hresult, hframe⟩, nofun⟩
  | false =>
    obtain ⟨t, hexec, hphase, hresult, hlen, hpos, hdsp⟩ :=
      h.feed_absorbs hidle hp hn (hrun.trans (if_neg (Bool.eq_false_iff.mp hr)))
    exact ⟨t, hexec, hpos, nofun, fun _ => ⟨hphase, hresult, hlen, hdsp⟩⟩

/-- Settles O27: the automaton closes the frame at its first tail (`absRun_closes`). -/
theorem anInnerTailClosesTheFrameEarly : Obligations.AnInnerTailClosesTheFrameEarly := by
  intro s F k h hidle hp hzero hhdr h3 hk hcap htail hno hr hn hchunk
  have hrun : absRun s.cfg.accCap s.routable s.accBytes (s.chunk F.length) =
      (.suspend, F.take (k + 1), F.drop (k + 1)) := by
    rw [State.accBytes_of_accLen_zero hzero, hchunk, absRun_closes hhdr h3 hk hcap htail hno, if_pos hr]
  obtain ⟨t, hexec, hphase, _, hframe, hpos, hend⟩ := h.feed_dispatches hidle hp hn hrun
  rw [take_getD_one (by omega)] at hframe
  rw [List.length_drop] at hpos
  exact ⟨t, hexec, hphase, hframe, by omega, hend⟩

/-! ## A frame that overflows (R175) -/

/-- The loop from `s` has taken the first `j` bytes of its chunk and reached `u`: they stand in ACC from index 0 on, and all of
them are accumulated unless they filled it. -/
structure State.Filling (s : State) (j : Nat) (u : State) : Prop where
  ready : u.Accumulating
  same : SameButRouter s u
  written : Memory.WrittenIn s.cfg .acc s.mem u.mem
  pos : u.feedPos = s.feedPos + j
  len : u.accLen = if j = s.cfg.accCap then 0 else j
  bytes : ∀ i, i < j → u.byteAt .acc i = s.byteAt .rxbuf (s.feedPos + i)

theorem State.byteAt_loopTurn (s : State) (i : Nat) :
    (loopTurn s).2.byteAt .acc i = if s.accLen = i then s.byteAt .rxbuf s.feedPos else s.byteAt .acc i := by
  simp only [State.byteAt, loopTurn_mem, Memory.get_put, Nat.add_left_cancel_iff]

/-- A byte after the header that is no closing tail is kept, or resets a full accumulator. -/
theorem State.Accumulating.loopTurn_keeps {s : State} (h : s.Accumulating)
    (hhdr : (if s.accLen = 0 then s.byteAt .rxbuf s.feedPos else s.byteAt .acc 0) = reqHdr)
    (hno : ¬ (4 ≤ s.accLen + 1 ∧ s.byteAt .rxbuf s.feedPos = 0x55#8)) :
    (loopTurn s).1 = .cont ∧ (loopTurn s).2.accLen = if s.accLen + 1 = s.cfg.accCap then 0 else s.accLen + 1 := by
  have hmoved : ({ s with feedPos := s.feedPos + 1 } : State).Accumulating := ⟨h.idle, h.room, h.fits, h.header, h.noTail⟩
  have hheader := (State.byteAt_appendAcc { s with feedPos := s.feedPos + 1 } (s.byteAt .rxbuf s.feedPos) 0).trans hhdr
  have hscan := (hmoved.findTail_appendAcc (s.byteAt .rxbuf s.feedPos)).trans (if_neg hno)
  by_cases hfull : s.accLen + 1 = s.cfg.accCap
  · rw [loopTurn, accByte_of_full hheader hscan hfull, if_pos hfull]
    exact ⟨rfl, rfl⟩
  · rw [loopTurn, accByte_of_room hheader hscan hfull, if_neg hfull]
    exact ⟨rfl, rfl⟩

section Filling

variable {s : State} (hc : s.cfg.wellFormed = true) (hrx : s.feedEnd ≤ s.cfg.rxSize)
  (hcap : s.feedEnd ≤ s.feedPos + s.cfg.accCap) (hhdr : s.byteAt .rxbuf s.feedPos = reqHdr)
  (hno : ∀ k, 3 ≤ k → s.feedPos + k < s.feedEnd → s.byteAt .rxbuf (s.feedPos + k) ≠ reqTail)

include hc hrx hcap hhdr hno

theorem State.Filling.loopTurn {j : Nat} {u : State} (h : s.Filling j u) (hlt : u.feedPos < u.feedEnd) :
    s.Filling (j + 1) (loopTurn u).2 := by
  obtain ⟨hready, hsame, hwritten, hpos, hlen, hbytes⟩ := h
  rw [hpos, hsame.feedEnd] at hlt
  have hsize := Buffer.size_le hc .rxbuf
  rw [if_neg (by omega)] at hlen
  have hbyte : u.byteAt .rxbuf u.feedPos = s.byteAt .rxbuf (s.feedPos + j) := by
    rw [hpos]
    exact hwritten.get_other hc (by decide) (Nat.lt_of_lt_of_le hlt (Nat.le_trans hrx hsize))
  have hkeeps := hready.loopTurn_keeps (by
    split
    · next hzero => rw [hbyte, show j = 0 from hlen.symm.trans hzero]; exact hhdr
    · next hpos => rw [hbytes 0 (by omega)]; exact hhdr)
    (fun ⟨h4, hb⟩ => hno j (by omega) hlt (hbyte.symm.trans hb))
  obtain ⟨hflow, hacc⟩ := hkeeps
  exact {
    ready := hready.loopTurn_stepsAs.continues hflow
    same := hsame.trans (loopTurn_same u)
    written := hwritten.trans (loopTurn_mem u ▸ .put u.mem _ (hsame.cfg ▸ hready.room))
    pos := by rw [loopTurn_feedPos, hpos, Nat.add_assoc]
    len := by rw [hacc, hlen, hsame.cfg]
    bytes := fun i hi => by
      rw [u.byteAt_loopTurn, hlen]
      split
      · next hij => rw [hbyte, hij]
      · next hij => exact hbytes i (by omega) }

theorem State.Filling.runLoop {j : Nat} {u : State} (h : s.Filling j u) : ∃ j', s.Filling j' (runLoop u) :=
  runTurns_induct (fun u => ∃ j, s.Filling j u)
    (fun _ ⟨j, hu⟩ hlt => ⟨j + 1, hu.loopTurn hc hrx hcap hhdr hno hlt⟩) _ u ⟨j, h⟩

end Filling

theorem State.chunk_getD (s : State) {n k : Nat} (hk : k < n) (d : Byte) :
    (s.chunk n).getD k d = s.byteAt .rxbuf (s.rxOff + k) := by
  rw [State.chunk, Memory.getD_bytes _ _ _ _ hk, Nat.add_assoc]
  rfl

/-- Settles O28: the loop fills the accumulator turn by turn (`State.Filling.loopTurn`) and ends in IDLE at its chunk's end. -/
theorem overflowResetsWithoutOverrun : Obligations.OverflowResetsWithoutOverrun := by
  intro s n h hidle hp hzero h1 hcap hn hhdr hno
  have hexec := exec_feed_accumulate hidle hp hn
  have hends := h.feed_ends (n := n) hidle
  obtain ⟨idle, room, fits, header, noTail⟩ := State.Accumulating.of_inv h hidle
  have hstart : State.Filling { s with feedPos := s.rxOff, feedEnd := s.rxOff + n } 0
      { s with feedPos := s.rxOff, feedEnd := s.rxOff + n } :=
    ⟨⟨idle, room, fits, header, noTail⟩, rfl, .refl .., rfl, hzero.trans (ite_self 0).symm, nofun⟩
  rw [s.chunk_getD h1] at hhdr
  have hno' : ∀ k, 3 ≤ k → s.rxOff + k < s.rxOff + n → s.byteAt .rxbuf (s.rxOff + k) ≠ reqTail := fun k h3 hk => by
    have hkn := Nat.lt_of_add_lt_add_left hk
    exact s.chunk_getD hkn 0#8 ▸ hno k h3 hkn
  obtain ⟨j, hfill⟩ := State.Filling.runLoop (s := { s with feedPos := s.rxOff, feedEnd := s.rxOff + n })
    h.config hn (Nat.add_le_add_left hcap _) hhdr hno' hstart
  generalize runLoop { s with feedPos := s.rxOff, feedEnd := s.rxOff + n } = t at hexec hends hfill
  obtain ⟨hsame, hwritten, ⟨_, _, hpos⟩ | ⟨hhold, _⟩⟩ := hends
  · obtain rfl : j = n := Nat.add_left_cancel (hfill.pos.symm.trans hpos)
    exact ⟨_, hexec, hfill.ready.idle, congrArg dispatchResult hfill.ready.idle, rfl, hfill.len, hpos.trans hsame.feedEnd.symm,
      fun k hk => (hfill.bytes k hk).trans (s.chunk_getD hk 0#8).symm, hwritten.outside⟩
  · cases hfill.ready.idle.symm.trans hhold.dispatch

/-! ## Chunk boundaries (R173) -/

/-- The state with the registers that only FEED's prologue and the end of a command write: where the chunk lies, RC, RESULT. -/
def State.setChunk (s : State) (off fin : Nat) (rc : ResultCode) (v : Word) : State :=
  { s with rxOff := off, feedEnd := fin, rc := rc, result := v }

section SetChunk

variable (off fin : Nat) (rc : ResultCode) (v : Word)

theorem dispatchAcc_setChunk (s : State) :
    dispatchAcc (s.setChunk off fin rc v) = ((dispatchAcc s).1, (dispatchAcc s).2.setChunk off fin rc v) := by
  rcases dispatchAcc_cases s with ⟨hr, h⟩ | ⟨hr, h⟩ <;> rw [h]
  · exact if_pos hr
  · exact if_neg (Bool.eq_false_iff.mp hr)

/-- The byte step neither reads nor writes those registers. -/
theorem accByte_setChunk (b : Byte) (s : State) :
    accByte b (s.setChunk off fin rc v) = ((accByte b s).1, (accByte b s).2.setChunk off fin rc v) := by
  rcases accByte_cases b s with ⟨hh, h⟩ | ⟨hh, i, hi, h⟩ | ⟨hh, hi, hfull, h⟩ | ⟨hh, hi, hroom, h⟩ <;> rw [h]
  · exact accByte_of_no_header (s := s.setChunk off fin rc v) hh
  · exact (accByte_of_tail (s := s.setChunk off fin rc v) hh hi).trans
      (dispatchAcc_setChunk off fin rc v { s.appendAcc b with accLen := i + 1 })
  · exact accByte_of_full (s := s.setChunk off fin rc v) hh hi hfull
  · exact accByte_of_room (s := s.setChunk off fin rc v) hh hi hroom

theorem loopTurn_setChunk (s : State) :
    loopTurn (s.setChunk off fin rc v) = ((loopTurn s).1, (loopTurn s).2.setChunk off fin rc v) :=
  accByte_setChunk off fin rc v _ { s with feedPos := s.feedPos + 1 }

end SetChunk

/-- What ACK does before its loop: the dispatch is over and the accumulator empty (R166). -/
def State.release (s : State) : State := { s with phase := .idle, accLen := 0 }

/-- One turn of the byte loop, a dispatch answered at once: what was dispatched, and the state the next turn starts from. -/
def turnAcked (s : State) : List (Byte × List Byte) × State :=
  match loopTurn s with
  | (.cont, t) => ([], t)
  | (.suspend, t) => ([t.dispatched], t.release)

/-- `k` turns, every dispatch answered at once. Unlike the loop, it does not look at FEED_END. -/
def turnsAcked : Nat → State → List (Byte × List Byte) × State
  | 0, s => ([], s)
  | k + 1, s => ((turnAcked s).1 ++ (turnsAcked k (turnAcked s).2).1, (turnsAcked k (turnAcked s).2).2)

/-- Turns compose, whatever chunks they come from. -/
theorem turnsAcked_add (n m : Nat) (s : State) :
    turnsAcked (n + m) s =
      ((turnsAcked n s).1 ++ (turnsAcked m (turnsAcked n s).2).1, (turnsAcked m (turnsAcked n s).2).2) := by
  induction n generalizing s with
  | zero => rw [Nat.zero_add]; rfl
  | succ n ih => simp only [Nat.succ_add, turnsAcked, ih, List.append_assoc]

theorem turnAcked_of_cont {s t : State} (h : loopTurn s = (.cont, t)) : turnAcked s = ([], t) := by
  rw [turnAcked, h]

theorem turnAcked_of_suspend {s t : State} (h : loopTurn s = (.suspend, t)) :
    turnAcked s = ([t.dispatched], t.release) := by
  rw [turnAcked, h]

theorem turnAcked_setChunk (s : State) (off fin : Nat) (rc : ResultCode) (v : Word) :
    turnAcked (s.setChunk off fin rc v) = ((turnAcked s).1, (turnAcked s).2.setChunk off fin rc v) := by
  have hset := loopTurn_setChunk off fin rc v s
  rcases hl : loopTurn s with ⟨_ | _, t⟩ <;> rw [hl] at hset
  · rw [turnAcked_of_cont hl, turnAcked_of_cont hset]
  · rw [turnAcked_of_suspend hl, turnAcked_of_suspend hset]
    rfl

theorem turnsAcked_setChunk (k : Nat) (s : State) (off fin : Nat) (rc : ResultCode) (v : Word) :
    turnsAcked k (s.setChunk off fin rc v) = ((turnsAcked k s).1, (turnsAcked k s).2.setChunk off fin rc v) := by
  induction k generalizing s with
  | zero => rfl
  | succ k ih => simp only [turnsAcked, turnAcked_setChunk, ih]

/-- `t` is where `k` turns from `s` end, every dispatch answered: ready for the next byte. -/
structure State.Turned (s : State) (k : Nat) (t : State) : Prop where
  idle : t.phase = .idle
  pos : t.feedPos = s.feedPos + k
  same : SameButRouter s t

theorem loopTurn_flow {s : State} (hidle : s.phase = .idle) :
    ((loopTurn s).1 = .suspend ∧ (loopTurn s).2.phase = .dispatch) ∨
    ((loopTurn s).1 = .cont ∧ (loopTurn s).2.phase = .idle) :=
  accByte_flow _ { s with feedPos := s.feedPos + 1 } hidle

theorem turnAcked_turned {s : State} (hidle : s.phase = .idle) : s.Turned 1 (turnAcked s).2 := by
  have hflow := loopTurn_flow hidle
  have hpos := loopTurn_feedPos s
  have hsame := loopTurn_same s
  rcases hl : loopTurn s with ⟨f, t⟩
  rw [hl] at hflow hpos hsame
  rcases hflow with ⟨rfl, _⟩ | ⟨rfl, hphase⟩
  · rw [turnAcked_of_suspend hl]
    exact ⟨rfl, hpos, hsame.trans rfl⟩
  · rw [turnAcked_of_cont hl]
    exact ⟨hphase, hpos, hsame⟩

theorem turnsAcked_turned (k : Nat) {s : State} (hidle : s.phase = .idle) : s.Turned k (turnsAcked k s).2 := by
  induction k generalizing s with
  | zero => exact ⟨hidle, rfl, .refl s⟩
  | succ k ih =>
    have hturn := turnAcked_turned hidle
    have hrest := ih hturn.idle
    exact ⟨hrest.idle, by rw [turnsAcked, hrest.pos, hturn.pos, Nat.add_assoc, Nat.add_comm 1],
      hturn.same.trans hrest.same⟩

/-- The turns do not look at RC and RESULT. -/
theorem turnsAcked_finish (k : Nat) {s : State} (hidle : s.phase = .idle) (rc : ResultCode) (v : Word) :
    turnsAcked k (s.finish rc v) = ((turnsAcked k s).1, (turnsAcked k s).2.finish rc v) := by
  have hsame := (turnsAcked_turned k hidle).same
  refine (turnsAcked_setChunk k s s.rxOff s.feedEnd rc v).trans (congrArg (Prod.mk _) ?_)
  rw [show (turnsAcked k s).2 = _ from hsame]
  rfl

/-! ### The commands make these turns -/

theorem ackAll_of_idle (j : Nat) {s : State} (h : s.phase = .idle) : ackAll j s = ([], s) := by
  cases j with
  | zero => rfl
  | succ j => exact if_neg (by rw [h]; decide)

theorem ackAll_of_dispatch (j : Nat) {s : State} (h : s.phase = .dispatch) (hp : s.cfg.policy = .accumulate) :
    ackAll (j + 1) s = (s.dispatched :: (ackAll j (runLoop s.release).finishRouter).1,
      (ackAll j (runLoop s.release).finishRouter).2) := by
  rw [ackAll, if_pos h, exec_ack_accumulate h hp]
  rfl

/-- A loop of `k` turns whose dispatches are answered by ACK makes `turnsAcked k`; each ACK ends with OK, the last one, or the
loop itself, with RESULT = 0. -/
theorem ackAll_runTurns (k : Nat) {j : Nat} {s : State} (hidle : s.phase = .idle) (hp : s.cfg.policy = .accumulate)
    (hk : s.feedPos + k = s.feedEnd) (hj : k < j) :
    ackAll j (runTurns k s).finishRouter = ((turnsAcked k s).1, (turnsAcked k s).2.finishOk 0#32) := by
  induction k generalizing j s with
  | zero =>
    rw [runTurns_zero, ackAll_of_idle j (s := s.finishRouter) hidle, State.finishRouter, hidle]
    rfl
  | succ k ih =>
    have hturn := turnAcked_turned hidle
    have hpol : (turnAcked s).2.cfg.policy = .accumulate := hturn.same.cfg ▸ hp
    have hleft : (turnAcked s).2.feedPos + k = (turnAcked s).2.feedEnd := by
      rw [hturn.pos, hturn.same.feedEnd]
      omega
    rw [runTurns_succ k s (by omega), turnsAcked]
    have hflow := loopTurn_flow hidle
    rcases hl : loopTurn s with ⟨_ | _, t⟩ <;> rw [hl] at hflow
    · have hih := ih hturn.idle hpol hleft (Nat.lt_of_succ_lt hj)
      rw [turnAcked_of_cont hl] at hih ⊢
      exact hih
    · obtain ⟨_, hdispatch⟩ : _ ∧ t.phase = .dispatch := hflow.resolve_right nofun
      obtain ⟨j, rfl⟩ : ∃ i, j = i + 1 := ⟨j - 1, by omega⟩
      rw [turnAcked_of_suspend hl] at hpol hleft ⊢
      have hih := ih (s := t.finishRouter.release) (j := j) rfl hpol hleft (Nat.lt_of_succ_lt_succ hj)
      have hturns : t.finishRouter.release.feedEnd - t.finishRouter.release.feedPos = k :=
        Nat.sub_eq_of_eq_add ((Nat.add_comm k _).trans hleft).symm
      rw [ackAll_of_dispatch j (s := t.finishRouter) hdispatch hpol, runLoop, hturns, hih,
        show t.finishRouter.release = t.release.finish .ok (dispatchResult t.phase) from rfl, turnsAcked_finish k rfl]
      rfl

/-- FEED with every dispatch answered by ACK is a turn per byte of the chunk, from the chunk's first byte. -/
theorem feedAcked_eq {s : State} {n : Nat} (hidle : s.phase = .idle) (hp : s.cfg.policy = .accumulate)
    (hn : s.rxOff + n ≤ s.cfg.rxSize) :
    feedAcked n s = ((turnsAcked n { s with feedPos := s.rxOff }).1,
      (turnsAcked n { s with feedPos := s.rxOff }).2.setChunk s.rxOff (s.rxOff + n) .ok 0#32) := by
  have hacked := ackAll_runTurns n (s := { s with feedPos := s.rxOff, feedEnd := s.rxOff + n }) hidle hp rfl
    (Nat.lt_succ_self n)
  have hset := turnsAcked_setChunk n { s with feedPos := s.rxOff } s.rxOff (s.rxOff + n) s.rc s.result
  have hturns : s.rxOff + n - s.rxOff = n := Nat.add_sub_cancel_left ..
  rw [feedAcked, exec_feed_accumulate hidle hp hn]
  dsimp only
  rw [runLoop, hturns, hacked,
    show ({ s with feedPos := s.rxOff, feedEnd := s.rxOff + n } : State) =
      { s with feedPos := s.rxOff }.setChunk s.rxOff (s.rxOff + n) s.rc s.result from rfl, hset]
  rfl

/-- Settles O25: the loop of each FEED is a sequence of turns, and the second FEED's turns start from the state in which the
first FEED's end, but for registers that no turn looks at. -/
theorem chunkBoundariesDoNotMatter : Obligations.ChunkBoundariesDoNotMatter := by
  intro s n m _ hidle hp hnm
  have hfirst := turnsAcked_turned n (s := { s with feedPos := s.rxOff }) hidle
  have hlast := turnsAcked_turned m hfirst.idle
  have hwhole := feedAcked_eq hidle hp hnm
  have hpart := feedAcked_eq (n := n) hidle hp (by omega)
  rw [turnsAcked_add] at hwhole
  rw [hwhole, hpart]
  generalize turnsAcked n { s with feedPos := s.rxOff } = r at *
  obtain ⟨ds, t⟩ := r
  dsimp only at *
  have hcfg : t.cfg = s.cfg := hfirst.same.cfg
  have hnext : { t.setChunk s.rxOff (s.rxOff + n) .ok 0#32 with rxOff := s.rxOff + n, feedPos := s.rxOff + n } =
      t.setChunk (s.rxOff + n) (s.rxOff + n) .ok 0#32 := by
    rw [← hfirst.pos]
    rfl
  have hrest := feedAcked_eq (s := { t.setChunk s.rxOff (s.rxOff + n) .ok 0#32 with rxOff := s.rxOff + n }) (n := m)
    hfirst.idle (hcfg ▸ hp) (by show s.rxOff + n + m ≤ t.cfg.rxSize; rw [hcfg]; omega)
  rw [hnext, turnsAcked_setChunk] at hrest
  rw [hrest]
  exact ⟨rfl, rfl, fun _ _ => rfl, hlast.idle, hlast.idle⟩

end Sys2Proof.Machine

/-! # The response queue (42_queue.md): O33 and O34

POP in terms of the entry sequence (10_state.md R35, R36): a non-empty sequence has the head slot's frame first, so each of POP's
branches is an equation about the sequence's front (`popFrame_beyond` to `State.QueueBounded.popFrame_front`). -/

namespace Sys2Proof.Machine

/-! ## POP (R203) -/

theorem exec_pop {s : State} (c : Nat) (hidle : s.phase = .idle) : exec (.pop c) s = .next (popFrame c s) :=
  onlyIn_accepted _ hidle

theorem State.entries_eq_nil_iff (s : State) : s.entries = [] ↔ s.qCount = 0 := by
  rw [← List.length_eq_zero_iff, State.length_entries]

section Pop

variable {s : State} {c : Nat} {f : List Byte} {rest : List (List Byte)}

/-- The front of the entry sequence is the head slot's frame, and a release leaves the rest. -/
theorem State.QueueBounded.of_entries_cons (h : s.QueueBounded) (he : s.entries = f :: rest) :
    s.qCount ≠ 0 ∧ (s.slot s.qHead).frame = f ∧ (s.slot s.qHead).len = f.length ∧ s.dequeue.entries = rest := by
  have hne : s.qCount ≠ 0 := fun hzero => by
    rw [s.entries_eq_nil_iff.mpr hzero] at he
    cases he
  obtain ⟨hlen, _⟩ := h.front hne
  obtain ⟨hhead, _⟩ := h
  rw [State.entries_dequeue s (Nat.pos_of_ne_zero hne) hhead, List.cons.injEq] at he
  obtain ⟨hframe, hrest⟩ := he
  exact ⟨hne, hframe, hframe ▸ hlen.symm, hrest⟩

theorem popFrame_beyond (hc : s.cfg.rbufSize < c) : popFrame c s = s.fail .arg := if_pos hc

theorem popFrame_empty (hc : c ≤ s.cfg.rbufSize) (he : s.entries = []) :
    popFrame c s = { s with rspLen := 0 }.finishOk 0#32 :=
  (if_neg (Nat.not_lt.mpr hc)).trans (if_pos (s.entries_eq_nil_iff.mp he))

theorem State.QueueBounded.popFrame_short (h : s.QueueBounded) (hc : c ≤ s.cfg.rbufSize) (he : s.entries = f :: rest)
    (hf : c < f.length) : popFrame c s = { s with rspLen := 0 }.fail .range := by
  obtain ⟨hne, _, hlen, _⟩ := h.of_entries_cons he
  exact (if_neg (Nat.not_lt.mpr hc)).trans ((if_neg hne).trans (if_pos (hlen ▸ hf)))

/-- POP with room for the front frame `f` hands out `f` and releases its slot. -/
theorem State.QueueBounded.popFrame_front (h : s.QueueBounded) (hc : c ≤ s.cfg.rbufSize) (he : s.entries = f :: rest)
    (hf : f.length ≤ c) :
    popFrame c s = { s.putBytes .rbuf 0 f with rspLen := f.length }.dequeue.finishOk (zext f.length) := by
  obtain ⟨hne, hframe, hlen, _⟩ := h.of_entries_cons he
  have hfits : ¬ c < (s.slot s.qHead).len := Nat.not_lt.mpr (hlen ▸ hf)
  rw [← hlen, ← hframe]
  exact (if_neg (Nat.not_lt.mpr hc)).trans ((if_neg hne).trans (if_neg hfits))

end Pop

/-- Settles O33: POP's equation in each of its four cases; in the last, what the copy leaves in RBUF and what the release leaves
in the queue. -/
theorem popHandsOutTheOldestFrame : Obligations.PopHandsOutTheOldestFrame := by
  intro s c h hidle
  rw [exec_pop c hidle]
  refine ⟨fun hc => congrArg _ (popFrame_beyond hc), fun hc he => congrArg _ (popFrame_empty hc he),
    fun f rest hc he hf => congrArg _ (h.queue.popFrame_short hc he hf), fun f rest hc he hf => ?_⟩
  obtain ⟨hne, _, _, hrest⟩ := h.queue.of_entries_cons he
  have houtside : ∀ a, (a < 0x2000 ∨ 0x2000 + f.length ≤ a) → (s.mem.putBytes 0x2000 f).get a = s.mem.get a := fun a ha => by
    rw [Memory.get_putBytes, if_neg (by omega)]
  exact ⟨_, congrArg _ (h.queue.popFrame_front hc he hf), hrest, s.bytesOf_putBytes .rbuf f, rfl, rfl, rfl,
    Nat.sub_add_cancel (Nat.pos_of_ne_zero hne), rfl, houtside, rfl⟩

/-! ## COUNT (R204) -/

/-- Settles O34: COUNT has no check in either phase, so both sides are Q_COUNT by definition. -/
theorem countReadsTheOccupancy : Obligations.CountReadsTheOccupancy := fun _ => ⟨rfl, rfl⟩

end Sys2Proof.Machine

/-! # The Handshake Coordinator (43_handshake.md): O37 to O40

A preparation is one `State.finishPrepare`, whose effect on TXBUF is said once (`State.byteAt_finishPrepare`,
`State.get_finishPrepare`). With no response it is one equation (`prepareTx_none`), with one it has two ends
(`prepareTx_some_cases`); both are `prepareTx_cases` in the words of R236. -/

namespace Sys2Proof.Machine

/-! ## CSTATUS (R232) -/

theorem State.toNat_advertised (s : State) (n : Nat) :
    (s.advertised n).toNat = if n ≤ s.qCount then s.cfg.busyByte.toNat else s.cfg.readyByte.toNat :=
  apply_ite ..

theorem exec_cstatus (n : Nat) (s : State) : exec (.cstatus n) s = .next (s.finishOk (zextByte (s.advertised n))) := rfl

/-- Settles O37: RESULT is the advertised byte, read as a number. -/
theorem cstatusComparesOccupancyWithCapacity : Obligations.CstatusComparesOccupancyWithCapacity := by
  intro s n
  rw [exec_cstatus, zextByte_eq, s.toNat_advertised]
  rfl

/-! ## What the end of a preparation leaves in TXBUF (R233) -/

section FinishPrepare

variable {s : State} {c : Handshake} {consumed : Bool}

/-- TXBUF begins with the bytes of the preparation. -/
theorem State.byteAt_finishPrepare {tx : List Byte} {k : Nat} (hk : k < tx.length) :
    (s.finishPrepare tx c consumed).byteAt .txbuf k = tx[k] := by
  have hsame := s.byteAt_putBytes_same .txbuf 0 tx k
  rw [if_pos (by omega), Nat.sub_zero, List.getD_eq_getElem _ _ hk] at hsame
  exact hsame

theorem State.byteAt_finishPrepare_replicate {b : Byte} {m k : Nat} (hk : k < m) :
    (s.finishPrepare (List.replicate m b) c consumed).byteAt .txbuf k = b := by
  rw [State.byteAt_finishPrepare (by rwa [List.length_replicate]), List.getElem_replicate]

/-- No byte beyond TXBUF[0..TX_LEN-1] is written. -/
theorem State.get_finishPrepare {tx : List Byte} {a : Nat} (ha : a < 0x3000 ∨ 0x3000 + tx.length ≤ a) :
    (s.finishPrepare tx c consumed).mem.get a = s.mem.get a := by
  rw [State.finishPrepare_eq, Memory.get_putBytes, if_neg (by omega)]

end FinishPrepare

/-! ## The classification of a preparation (R236) -/

theorem validStatus_eq_false_iff (c : Config) (b : Byte) :
    validStatus c b = false ↔ b ≠ c.readyByte ∧ b ≠ c.busyByte := by
  rw [← Bool.not_eq_true, validStatus_iff, not_or]

/-- A status byte with a transmit length that TXBUF holds is not UNRECOGNIZED on its own account. -/
theorem not_unrecognized {c : Config} {b : Byte} {n : Nat} (hpos : 0 < n) (hfit : n ≤ c.txSize)
    (hstatus : validStatus c b = true) : ¬ (n = 0 ∨ c.txSize < n ∨ (b ≠ c.readyByte ∧ b ≠ c.busyByte)) := by
  rw [← validStatus_eq_false_iff, hstatus]
  rintro (hzero | hbeyond | hother)
  · exact Nat.ne_of_gt hpos hzero
  · exact Nat.not_lt.mpr hfit hbeyond
  · cases hother

/-- The classification of a transaction that offers no response. -/
def statusClass (c : Config) (b : Byte) (n : Nat) : Handshake :=
  if n = 0 ∨ c.txSize < n ∨ (b ≠ c.readyByte ∧ b ≠ c.busyByte) then .unrecognized
  else if b = c.readyByte then .ready else .busy

theorem handshakeResult_statusClass (c : Config) (b : Byte) (n : Nat) :
    handshakeResult (statusClass c b n) false =
      if n = 0 ∨ c.txSize < n ∨ (b ≠ c.readyByte ∧ b ≠ c.busyByte) then 3#32
      else if b = c.readyByte then 0#32 else 1#32 := by
  unfold statusClass
  split
  · rfl
  · split <;> rfl

/-- With no response TXBUF is the status byte throughout, whatever the classification. -/
theorem prepareTx_none (b : Byte) (n : Nat) (s : State) : prepareTx b n none s =
    s.finishPrepare (List.replicate (min n s.cfg.txSize) b) (statusClass s.cfg b n) false := by
  unfold statusClass
  rcases prepareTx_cases b n none s with ⟨hcond, h⟩ | ⟨_, _, _, _, hsome, _⟩ | ⟨hpos, hfit, hstatus, _, h⟩
  · rw [h, if_pos (by simpa [validStatus_eq_false_iff] using hcond)]
  · cases hsome
  · rw [h, if_neg (not_unrecognized hpos hfit hstatus), Nat.min_eq_left hfit]

/-- With a response the preparation falls back to the status byte, or sends the response and pads it. -/
theorem prepareTx_some_cases (b : Byte) (n : Nat) (f : List Byte) (s : State) :
    ((n = 0 ∨ s.cfg.txSize < n ∨ (b ≠ s.cfg.readyByte ∧ b ≠ s.cfg.busyByte) ∨ n < f.length) ∧
      prepareTx b n (some f) s = s.finishPrepare (List.replicate (min n s.cfg.txSize) b) .unrecognized false) ∨
    (¬ (n = 0 ∨ s.cfg.txSize < n ∨ (b ≠ s.cfg.readyByte ∧ b ≠ s.cfg.busyByte) ∨ n < f.length) ∧
      prepareTx b n (some f) s = s.finishPrepare (f ++ List.replicate (n - f.length) b) .response true) := by
  rcases prepareTx_cases b n (some f) s with
    ⟨hcond, h⟩ | ⟨hpos, hfit, hstatus, f', hf, hlen, h⟩ | ⟨_, _, _, hnone, _⟩
  · exact .inl ⟨by simpa [validStatus_eq_false_iff] using hcond, h⟩
  · cases hf
    have hshort : ¬ n < f.length := Nat.not_lt.mpr hlen
    have hrecognized := not_unrecognized hpos hfit hstatus
    exact .inr ⟨by tauto, h⟩
  · cases hnone

/-! ## PREPARE (R234) -/

theorem exec_prepare {s : State} (b : Byte) (n : Nat) (hidle : s.phase = .idle) :
    exec (.prepare b n) s =
      .next (s.finishPrepare (List.replicate (min n s.cfg.txSize) b) (statusClass s.cfg b n) false) :=
  (onlyIn_accepted _ hidle).trans (congrArg _ (prepareTx_none b n s))

/-- Settles O38: PREPARE's equation, with TX_LEN the length of the pattern. -/
theorem prepareFillsWithTheStatusByte : Obligations.PrepareFillsWithTheStatusByte := by
  intro s b n hidle
  have hlen := List.length_replicate (n := min n s.cfg.txSize) (a := b)
  exact ⟨_, exec_prepare b n hidle, rfl, hlen, handshakeResult_statusClass s.cfg b n,
    fun k hk => State.byteAt_finishPrepare_replicate (hlen ▸ hk), fun a => State.get_finishPrepare, rfl⟩

/-! ## PREPARE_RSP (R235) -/

theorem exec_prepareRsp {s : State} (b : Byte) (n : Nat) (hidle : s.phase = .idle) :
    exec (.prepareRsp b n) s = .next (prepareTx b n s.offeredResponse s) :=
  onlyIn_accepted _ hidle

theorem State.offeredResponse_none {s : State} (h : s.rspLen = 0) : s.offeredResponse = none :=
  if_neg (by omega)

theorem State.offeredResponse_some {s : State} (h : 0 < s.rspLen) :
    s.offeredResponse = some (s.bytesOf .rbuf s.rspLen) :=
  if_pos h

/-- TXBUF after a response with its padding: the response, then the status byte up to the transmit length. -/
theorem State.byteAt_finishPrepare_padded (s : State) (f : List Byte) (b : Byte) (n : Nat) :
    (∀ k (hk : k < f.length),
      (s.finishPrepare (f ++ List.replicate (n - f.length) b) .response true).byteAt .txbuf k = f[k]) ∧
    ∀ k, f.length ≤ k → k < n →
      (s.finishPrepare (f ++ List.replicate (n - f.length) b) .response true).byteAt .txbuf k = b := by
  have hlen : (f ++ List.replicate (n - f.length) b).length = f.length + (n - f.length) := by simp
  refine ⟨fun k hk => ?_, fun k hle hk => ?_⟩
  · rw [State.byteAt_finishPrepare (by omega), List.getElem_append_left hk]
  · rw [State.byteAt_finishPrepare (by omega), List.getElem_append_right hle, List.getElem_replicate]

/-- Settles O39: without a response PREPARE_RSP is PREPARE; with one, its two ends are the two sides of R236's condition. -/
theorem prepareRspSendsTheResponseWithPadding : Obligations.PrepareRspSendsTheResponseWithPadding := by
  intro s b n hidle
  rw [exec_prepareRsp b n hidle]
  refine ⟨fun hzero => ?_, fun hpos => ?_⟩
  · rw [s.offeredResponse_none hzero, prepareTx_none, exec_prepare b n hidle]
  rw [s.offeredResponse_some hpos]
  have hrsp := s.length_bytesOf .rbuf s.rspLen
  rcases prepareTx_some_cases b n (s.bytesOf .rbuf s.rspLen) s with ⟨hcond, h⟩ | ⟨hcond, h⟩ <;> rw [hrsp] at hcond
  · have hlen := List.length_replicate (n := min n s.cfg.txSize) (a := b)
    exact ⟨_, congrArg _ h, rfl, hlen, fun _ => ⟨rfl, fun k hk => State.byteAt_finishPrepare_replicate (hlen ▸ hk)⟩,
      absurd hcond, fun a => State.get_finishPrepare, rfl⟩
  · obtain ⟨hfront, hpad⟩ := s.byteAt_finishPrepare_padded (s.bytesOf .rbuf s.rspLen) b n
    have hlen : (s.bytesOf .rbuf s.rspLen ++ List.replicate (n - (s.bytesOf .rbuf s.rspLen).length) b).length =
        min n s.cfg.txSize := by
      rw [List.length_append, List.length_replicate, hrsp]
      omega
    refine ⟨_, congrArg _ h, rfl, hlen, fun hbad => absurd hbad hcond,
      fun _ => ⟨rfl, fun k hk => ?_, fun k hle => hpad k (hrsp.le.trans hle)⟩, fun a => State.get_finishPrepare, rfl⟩
    rw [hfront k (hrsp.symm ▸ hk), ← List.getD_eq_getElem _ 0#8, s.getD_bytesOf .rbuf hk]

/-! ## POLL_BYTE as the status byte (R238) -/

/-- In a legal configuration POLL_BYTE is not a status byte. -/
theorem Config.pollByte_not_status {c : Config} (h : c.wellFormed = true) :
    c.pollByte ≠ c.readyByte ∧ c.pollByte ≠ c.busyByte := by
  obtain ⟨_, hdistinct, _⟩ := (Config.wellFormed_iff c).mp h
  obtain ⟨_, hready, hbusy⟩ := (Config.sentinelsDistinct_iff c).mp hdistinct
  exact ⟨hready.symm, hbusy.symm⟩

/-- Settles O40, from O38 and O39: POLL_BYTE meets the fallback's condition in both, with and without a response. -/
theorem pollByteAsStatusIsUnrecognized : Obligations.PollByteAsStatusIsUnrecognized := by
  intro s n hwf hidle
  have hpoll := Config.pollByte_not_status hwf
  have hprepare : ∃ t, exec (.prepare s.cfg.pollByte n) s = .next t ∧ t.result = 3#32 ∧ t.rc = .ok ∧
      t.txLen = min n s.cfg.txSize ∧ ∀ k, k < t.txLen → t.byteAt .txbuf k = s.cfg.pollByte := by
    obtain ⟨t, ht, hrc, hlen, hresult, hfill, _⟩ := prepareFillsWithTheStatusByte s s.cfg.pollByte n hidle
    exact ⟨t, ht, hresult.trans (if_pos (.inr (.inr hpoll))), hrc, hlen, hfill⟩
  obtain ⟨hnone, hsome⟩ := prepareRspSendsTheResponseWithPadding s s.cfg.pollByte n hidle
  refine ⟨hprepare, ?_⟩
  rcases Nat.eq_zero_or_pos s.rspLen with hzero | hpos
  · rwa [hnone hzero]
  · obtain ⟨t, ht, hrc, hlen, hbad, _⟩ := hsome hpos
    obtain ⟨hresult, hfill⟩ := hbad (.inr (.inr (.inl hpoll)))
    exact ⟨t, ht, hresult, hrc, hlen, hfill⟩

end Sys2Proof.Machine

/-! # The reset event (70_reset_and_hazards.md): O7

One step serves the event (`step_reset`), and what it leaves is `State.resetEvent`, whose buffers, queue slots and handler table
are read through lemmas; the other items are its fields. -/

namespace Sys2Proof.Machine

theorem step_reset {s : State} {rest : List Access} (h : s.cfg.wellFormed = true) (hp : s.pending = .reset :: rest) :
    step s = .next { s with pending := rest }.resetEvent :=
  step_of_access h hp

/-! ## What the event leaves (R291) -/

/-- The memory lists no cell, so every byte is the fill. -/
theorem State.byteAt_resetEvent (s : State) (b : Buffer) (k : Nat) : s.resetEvent.byteAt b k = 0x00#8 :=
  Memory.get_nil _

theorem State.length_slots_resetEvent (s : State) : s.resetEvent.slots.length = s.cfg.qDepth :=
  List.length_replicate

theorem State.slot_resetEvent (s : State) :
    ∀ q ∈ s.resetEvent.slots, q.len = 0 ∧ q.data = List.replicate s.cfg.qFrameMax 0x00#8 := by
  intro q hq
  have hcleared : q = Slot.cleared s.cfg.qFrameMax := List.eq_of_mem_replicate hq
  subst hcleared
  exact ⟨rfl, rfl⟩

/-- HENk is cut out of the table of all types, which is 0. -/
theorem State.henWord_resetEvent (s : State) (k : Nat) : s.resetEvent.henWord k = 0#32 :=
  BitVec.extractLsb'_zero

/-- STATUS is put together of RC = OK, PHASE = IDLE and two flags that are 0. -/
theorem State.statusWord_resetEvent (s : State) : s.resetEvent.statusWord = 0#32 :=
  BitVec.eq_of_toNat_eq (State.toNat_statusWord _)

/-- Settles O7: the reset event's state item by item, the items that are computed by the lemmas above and the others as fields
of `State.resetEvent`. -/
theorem resetEventGivesTheResetValues : Obligations.ResetEventGivesTheResetValues := by
  intro s rest hwf hp
  exact ⟨_, step_reset hwf hp, rfl, rfl, rfl, rfl, rfl, rfl, rfl, State.byteAt_resetEvent _, State.length_slots_resetEvent _,
    State.slot_resetEvent _, rfl, rfl, rfl, rfl, rfl, rfl, fun k _ => State.henWord_resetEvent _ k, rfl, rfl,
    State.statusWord_resetEvent _, fun _ => rfl, rfl⟩

end Sys2Proof.Machine
